-- ==== Sys2Proof/Word.lean ====
section
/-! DEFINITION. The word types of FPSE-1 (spec/00_scope.md R8: bit 0 is the least significant bit, every value is
unsigned). -/

namespace Sys2Proof

/-- An 8-bit value: a storage byte, a colour channel, a palette slot, a palette index. -/
abbrev Byte := BitVec 8

/-- A 16-bit value: a coordinate, a dimension, a 565 code. -/
abbrev Half := BitVec 16

/-- A 32-bit value: a command word, a response RESULT, a linear position. -/
abbrev Word := BitVec 32

end Sys2Proof
end

