-- ==== Sys2Proof/Config.lean ====
section
/-! DEFINITION. What an implementation of FPSE-1 fixes and the spec leaves open (spec/00_scope.md R6). The one OPEN
parameter is CAP; every other parameter of R6 has its value in the rules that use it. -/

namespace Sys2Proof

/-- CAP less one, with no body: nothing in Lean can evaluate it (log 2). Its type says 1 ≤ CAP ≤ 2^32 - 1. -/
opaque Config.capLessOne : Fin 4294967295

/-- `CAP`, the storage capacity in bytes, "any integer 1 ≤ CAP ≤ 2^32−1" (00_scope.md R6; 93_implementation_defined.md
U17). It is the value State.reset holds in its field `cap`; every meaning reads that field, so a statement about every
state holds for every CAP (R7). -/
def Config.cap : Fin 4294967296 := Config.capLessOne.succ

/-- `PAL_SLOTS`, the number of palette registers (00_scope.md R6; 10_state.md R25). -/
abbrev Config.palSlots : Nat := 256

end Sys2Proof
end

