-- ==== Sys2Proof/Syntax.lean ====
section
/-! DEFINITION. The commands of FPSE-1: one constructor per row of spec/opcode_table.json (30_encoding.md R84), its
operands with the widths of R82 and R83. -/

namespace Sys2Proof

/-- A color: four 8-bit channels (00_scope.md R11). -/
structure Color where
  r : Byte
  g : Byte
  b : Byte
  w : Byte
deriving DecidableEq, Repr

/-- `Color(r, g, b)` of 00_scope.md R11: white is 0. -/
def Color.rgb (r g b : Byte) : Color := ⟨r, g, b, 0⟩

/-- One command of the opcode map (30_encoding.md R84). Operands are unsigned fields taken as they stand (R83). -/
inductive Instr where
  -- lifecycle and configuration, 0x00 to 0x05
  | nop
  | cfgSet (var : BitVec 2) (rba : Bool)
  | palSize (psize : BitVec 9)
  | palWrite (slot : Byte) (color : Color)
  | palRead (slot : Byte)
  | init (width height : Half)
  -- pixel writes, 0x10 to 0x12
  | fill (color : Color)
  | setPixel (x y : Half) (color : Color)
  | setPixelIndex (x y : Half) (index : Byte)
  -- pixel reads, 0x20 to 0x25
  | get565Xy (x y : Half)
  | get565Pos (pos : Word)
  | get666Xy (x y : Half)
  | get666Pos (pos : Word)
  | getIndexXy (x y : Half)
  | getIndexPos (pos : Word)
  -- queries and dirty tracking, 0x30 to 0x36
  | bufSize
  | bufLength
  | pixelBits
  | dirtyLo
  | dirtyHi
  | resetDirty
  | statusRead
  -- codec, 0x40 to 0x46
  | cvt565 (color : Color)
  | cvt666 (color : Color)
  | cvt332 (color : Color)
  | cvt233 (color : Color)
  | cvt332To565 (value : Word)
  | cvt565ToRgb (value : Word)
  | cvt666ToRgb (value : Word)
deriving DecidableEq, Repr

/-- The pseudo-instructions of 30_encoding.md R90. -/
inductive Pseudo where
  | clear
  | palette (colors : List Color)
  | dirty
  | flushDone
deriving DecidableEq, Repr

end Sys2Proof
end

