-- ==== Sys2Proof/Decode.lean ====
section
/-! DEFINITION. The decoder and the encoder of spec/30_encoding.md. A command is the 96 bits of `cmd_data` (R80); there
is one length and one form (R88), and no opcode depends on the engine's state (R85). -/

namespace Sys2Proof

/-- The 96 bits of `cmd_data` (30_encoding.md R80). -/
abbrev Command := BitVec 96

/-- W0 = cmd_data[95:64] (R80). -/
def cmdW0 (c : Command) : Word := c.extractLsb' 64 32

/-- W1 = cmd_data[63:32] (R80). -/
def cmdW1 (c : Command) : Word := c.extractLsb' 32 32

/-- W2 = cmd_data[31:0] (R80). -/
def cmdW2 (c : Command) : Word := c.extractLsb' 0 32

/-- `cmd_data` from its three words (R80). -/
def cmdOfWords (w0 w1 w2 : Word) : Command := w0 ++ w1 ++ w2

/-- The channels of a COLOR word: r = [31:24], g = [23:16], b = [15:8], w = [7:0] (00_scope.md R11). -/
def colorOfWord (v : Word) : Color :=
  ⟨v.extractLsb' 24 8, v.extractLsb' 16 8, v.extractLsb' 8 8, v.extractLsb' 0 8⟩

/-- The COLOR word `{r, g, b, w}` (00_scope.md R11). -/
def wordOfColor (c : Color) : Word := c.r ++ c.g ++ c.b ++ c.w

/-- The upper half of an operand word: X, WIDTH (30_encoding.md R83). -/
def upperHalf (v : Word) : Half := v.extractLsb' 16 16

/-- The lower half of an operand word: Y, HEIGHT (30_encoding.md R83). -/
def lowerHalf (v : Word) : Half := v.extractLsb' 0 16

/-! ## The decoder -/

/-- Why a command is illegal (30_encoding.md R86). -/
inductive DecodeError where
  /-- OPC is not in the table of R84. -/
  | undefinedOpcode (opc : Byte)
  /-- A W0 bit that the format marks `0` is 1. -/
  | reservedBitSet (opc : Byte)
deriving DecidableEq, Repr

/-- W0[31:24], the opcode OPC (30_encoding.md R82). -/
def opcodeField (w0 : Word) : Byte := w0.extractLsb' 24 8

/-- `i`, if W0[23:0] is 0 outside the operand bits `operandBits` of the format; otherwise the command is illegal
(30_encoding.md R82, R86). -/
def withOperands (operandBits w0 : Word) (i : Instr) : Except DecodeError Instr :=
  if w0 &&& 0x00FFFFFF &&& ~~~operandBits = 0 then .ok i else .error (.reservedBitSet (opcodeField w0))

/-- W0 operand bits of the formats FN, FDIM, FXY, FPOS, FC and FV: none (30_encoding.md R82). -/
def noBits : Word := 0x00000000

/-- W0 operand bits of format FCFG: RBA = [8], VAR = [1:0]. -/
def fcfgBits : Word := 0x00000103

/-- W0 operand bits of format FPS: PSIZE = [8:0]. -/
def fpsBits : Word := 0x000001FF

/-- W0 operand bits of the formats FPI and FXYI: SLOT or INDEX = [7:0]. -/
def slotBits : Word := 0x000000FF

/-- The instruction that three words spell (30_encoding.md R82, R83, R84), or why they are illegal (R86). W1 and W2 bits
that a command does not use are not looked at (R87). -/
def decodeWords (w0 w1 w2 : Word) : Except DecodeError Instr :=
  match (opcodeField w0).toNat with
  | 0x00 => withOperands noBits w0 .nop
  | 0x01 => withOperands fcfgBits w0 (.cfgSet (w0.extractLsb' 0 2) (w0.getLsbD 8))
  | 0x02 => withOperands fpsBits w0 (.palSize (w0.extractLsb' 0 9))
  | 0x03 => withOperands slotBits w0 (.palWrite (w0.extractLsb' 0 8) (colorOfWord w2))
  | 0x04 => withOperands slotBits w0 (.palRead (w0.extractLsb' 0 8))
  | 0x05 => withOperands noBits w0 (.init (upperHalf w1) (lowerHalf w1))
  | 0x10 => withOperands noBits w0 (.fill (colorOfWord w2))
  | 0x11 => withOperands noBits w0 (.setPixel (upperHalf w1) (lowerHalf w1) (colorOfWord w2))
  | 0x12 => withOperands slotBits w0 (.setPixelIndex (upperHalf w1) (lowerHalf w1) (w0.extractLsb' 0 8))
  | 0x20 => withOperands noBits w0 (.get565Xy (upperHalf w1) (lowerHalf w1))
  | 0x21 => withOperands noBits w0 (.get565Pos w1)
  | 0x22 => withOperands noBits w0 (.get666Xy (upperHalf w1) (lowerHalf w1))
  | 0x23 => withOperands noBits w0 (.get666Pos w1)
  | 0x24 => withOperands noBits w0 (.getIndexXy (upperHalf w1) (lowerHalf w1))
  | 0x25 => withOperands noBits w0 (.getIndexPos w1)
  | 0x30 => withOperands noBits w0 .bufSize
  | 0x31 => withOperands noBits w0 .bufLength
  | 0x32 => withOperands noBits w0 .pixelBits
  | 0x33 => withOperands noBits w0 .dirtyLo
  | 0x34 => withOperands noBits w0 .dirtyHi
  | 0x35 => withOperands noBits w0 .resetDirty
  | 0x36 => withOperands noBits w0 .statusRead
  | 0x40 => withOperands noBits w0 (.cvt565 (colorOfWord w2))
  | 0x41 => withOperands noBits w0 (.cvt666 (colorOfWord w2))
  | 0x42 => withOperands noBits w0 (.cvt332 (colorOfWord w2))
  | 0x43 => withOperands noBits w0 (.cvt233 (colorOfWord w2))
  | 0x44 => withOperands noBits w0 (.cvt332To565 w1)
  | 0x45 => withOperands noBits w0 (.cvt565ToRgb w1)
  | 0x46 => withOperands noBits w0 (.cvt666ToRgb w1)
  | _ => .error (.undefinedOpcode (opcodeField w0))

/-- The decoder: total on all 96 bits of the command port. -/
def decode (c : Command) : Except DecodeError Instr := decodeWords (cmdW0 c) (cmdW1 c) (cmdW2 c)

/-! ## The encoder (30_encoding.md R91) -/

/-- The opcode of each command (30_encoding.md R84). -/
def opcodeOf : Instr → Byte
  | .nop => 0x00
  | .cfgSet .. => 0x01
  | .palSize .. => 0x02
  | .palWrite .. => 0x03
  | .palRead .. => 0x04
  | .init .. => 0x05
  | .fill .. => 0x10
  | .setPixel .. => 0x11
  | .setPixelIndex .. => 0x12
  | .get565Xy .. => 0x20
  | .get565Pos .. => 0x21
  | .get666Xy .. => 0x22
  | .get666Pos .. => 0x23
  | .getIndexXy .. => 0x24
  | .getIndexPos .. => 0x25
  | .bufSize => 0x30
  | .bufLength => 0x31
  | .pixelBits => 0x32
  | .dirtyLo => 0x33
  | .dirtyHi => 0x34
  | .resetDirty => 0x35
  | .statusRead => 0x36
  | .cvt565 .. => 0x40
  | .cvt666 .. => 0x41
  | .cvt332 .. => 0x42
  | .cvt233 .. => 0x43
  | .cvt332To565 .. => 0x44
  | .cvt565ToRgb .. => 0x45
  | .cvt666ToRgb .. => 0x46

/-- W0[23:0] of each command: its W0 operand fields, every reserved bit 0 (30_encoding.md R82, R91). -/
def operandBitsOf : Instr → BitVec 24
  | .cfgSet var rba => 0#15 ++ BitVec.ofBool rba ++ 0#6 ++ var
  | .palSize psize => 0#15 ++ psize
  | .palWrite slot _ => 0#16 ++ slot
  | .palRead slot => 0#16 ++ slot
  | .setPixelIndex _ _ index => 0#16 ++ index
  | .nop | .init .. | .fill .. | .setPixel .. | .get565Xy .. | .get565Pos .. | .get666Xy .. | .get666Pos ..
  | .getIndexXy .. | .getIndexPos .. | .bufSize | .bufLength | .pixelBits | .dirtyLo | .dirtyHi | .resetDirty
  | .statusRead | .cvt565 .. | .cvt666 .. | .cvt332 .. | .cvt233 .. | .cvt332To565 .. | .cvt565ToRgb ..
  | .cvt666ToRgb .. => 0

/-- W1 of each command, 0 where the command does not use it (30_encoding.md R89, R91). -/
def w1Of : Instr → Word
  | .init width height => width ++ height
  | .setPixel x y _ => x ++ y
  | .setPixelIndex x y _ => x ++ y
  | .get565Xy x y => x ++ y
  | .get666Xy x y => x ++ y
  | .getIndexXy x y => x ++ y
  | .get565Pos pos => pos
  | .get666Pos pos => pos
  | .getIndexPos pos => pos
  | .cvt332To565 value => value
  | .cvt565ToRgb value => value
  | .cvt666ToRgb value => value
  | .nop | .cfgSet .. | .palSize .. | .palWrite .. | .palRead .. | .fill .. | .bufSize | .bufLength | .pixelBits
  | .dirtyLo | .dirtyHi | .resetDirty | .statusRead | .cvt565 .. | .cvt666 .. | .cvt332 .. | .cvt233 .. => 0

/-- W2 of each command, 0 where the command does not use it (30_encoding.md R89, R91). -/
def w2Of : Instr → Word
  | .palWrite _ color => wordOfColor color
  | .fill color => wordOfColor color
  | .setPixel _ _ color => wordOfColor color
  | .cvt565 color => wordOfColor color
  | .cvt666 color => wordOfColor color
  | .cvt332 color => wordOfColor color
  | .cvt233 color => wordOfColor color
  | .nop | .cfgSet .. | .palSize .. | .palRead .. | .init .. | .setPixelIndex .. | .get565Xy .. | .get565Pos ..
  | .get666Xy .. | .get666Pos .. | .getIndexXy .. | .getIndexPos .. | .bufSize | .bufLength | .pixelBits | .dirtyLo
  | .dirtyHi | .resetDirty | .statusRead | .cvt332To565 .. | .cvt565ToRgb .. | .cvt666ToRgb .. => 0

/-- The command words of an instruction (30_encoding.md R91); ignored words are 0 (R89). -/
def encode (i : Instr) : Command := cmdOfWords (opcodeOf i ++ operandBitsOf i) (w1Of i) (w2Of i)

/-! ## The opcode table, and the host's numbering of its bits -/

/-- `match` and `mask` on W0 of every row of spec/opcode_table.json, in the table's order. -/
def opcodeRows : List (Word × Word) :=
  [(0x00000000, 0xFFFFFFFF), (0x01000000, 0xFFFFFEFC), (0x02000000, 0xFFFFFE00), (0x03000000, 0xFFFFFF00),
   (0x04000000, 0xFFFFFF00), (0x05000000, 0xFFFFFFFF), (0x10000000, 0xFFFFFFFF), (0x11000000, 0xFFFFFFFF),
   (0x12000000, 0xFFFFFF00), (0x20000000, 0xFFFFFFFF), (0x21000000, 0xFFFFFFFF), (0x22000000, 0xFFFFFFFF),
   (0x23000000, 0xFFFFFFFF), (0x24000000, 0xFFFFFFFF), (0x25000000, 0xFFFFFFFF), (0x30000000, 0xFFFFFFFF)] ++
  [(0x31000000, 0xFFFFFFFF), (0x32000000, 0xFFFFFFFF), (0x33000000, 0xFFFFFFFF), (0x34000000, 0xFFFFFFFF),
   (0x35000000, 0xFFFFFFFF), (0x36000000, 0xFFFFFFFF), (0x40000000, 0xFFFFFFFF), (0x41000000, 0xFFFFFFFF),
   (0x42000000, 0xFFFFFFFF), (0x43000000, 0xFFFFFFFF), (0x44000000, 0xFFFFFFFF), (0x45000000, 0xFFFFFFFF),
   (0x46000000, 0xFFFFFFFF)]

/-- W0 fits a row of the opcode table: "every other W0 bit must equal match" (spec/opcode_table.json; R86). -/
def legalW0 (w0 : Word) : Bool := opcodeRows.any fun row => w0 &&& row.2 == row.1

/-- The opcode range of each command's group, first and last (30_encoding.md R85). -/
def groupRange : Instr → Nat × Nat
  | .nop | .cfgSet .. | .palSize .. | .palWrite .. | .palRead .. | .init .. => (0x00, 0x05)
  | .fill .. | .setPixel .. | .setPixelIndex .. => (0x10, 0x12)
  | .get565Xy .. | .get565Pos .. | .get666Xy .. | .get666Pos .. | .getIndexXy .. | .getIndexPos .. => (0x20, 0x25)
  | .bufSize | .bufLength | .pixelBits | .dirtyLo | .dirtyHi | .resetDirty | .statusRead => (0x30, 0x36)
  | .cvt565 .. | .cvt666 .. | .cvt332 .. | .cvt233 .. | .cvt332To565 .. | .cvt565ToRgb .. | .cvt666ToRgb .. =>
    (0x40, 0x46)

/-- The command whose bits are `w`, numbered as spec/opcode_table.json numbers them: W0 in bits 31..0, W1 in bits 63..32,
W2 in bits 95..64, every bit from `nbits` on 0 (log 11). -/
def tableCommand (nbits w : Nat) : Command :=
  let v := w % 2 ^ nbits
  cmdOfWords (BitVec.ofNat 32 v) (BitVec.ofNat 32 (v / 2 ^ 32)) (BitVec.ofNat 32 (v / 2 ^ 64))

/-- The instruction the decoder reads from an opcode-table word; none where it refuses. -/
def decodeTableWord (nbits w : Nat) : Option Instr :=
  match decode (tableCommand nbits w) with
  | .ok i => some i
  | .error _ => none

end Sys2Proof
end

