-- ==== Sys2Proof/Machine/State.lean ====
section
/-! DEFINITION. The state of FPSE-1: every register and array of spec/10_state.md R20 to R35, the response port
(30_encoding.md R80), the host's coming moves and the parameter CAP; the reasons a step can stop; the state after reset. -/

namespace Sys2Proof.Machine

/-- ENG_STATE (10_state.md R20). The reserved value 3, which "no rule writes", has no constructor (log 10). -/
inductive EngState where
  | uninit
  | ready
  | unusable
deriving DecidableEq, Repr

/-- CFG_VARIANT (10_state.md R22). The reserved value 3, which "the register never holds", has no constructor (log 10). -/
inductive Variant where
  | v565
  | v666
  | indexed
deriving DecidableEq, Repr

/-- The response STATUS codes of 60_exceptions.md R210; the reserved codes, "never returned", have no constructor. -/
inductive Status where
  | ok
  | errIllegal
  | errState
  | errUnusable
  | errAlloc
  | errConfig
  | errArg
  | errBounds
  | errVariant
deriving DecidableEq, Repr

/-- A response: STATUS and RESULT (30_encoding.md R81). -/
structure Response where
  status : Status
  result : Word
deriving DecidableEq, Repr

/-- DIRTY_XL, DIRTY_YL, DIRTY_XH, DIRTY_YH (10_state.md R29), inclusive bounds. -/
structure DirtyRect where
  xl : Half
  yl : Half
  xh : Half
  yh : Half
deriving DecidableEq, Repr

/-- The empty encoding of the dirty rectangle (10_state.md R29). -/
def DirtyRect.empty : DirtyRect := ⟨0xFFFF, 0xFFFF, 0x0000, 0x0000⟩

/-- The palette register file PAL[0..255] (10_state.md R25). -/
abbrev Palette := Vector Color Config.palSlots

/-- The storage bytes that differ from what an unlisted address reads as, addresses strictly rising (10_state.md R32). -/
abbrev Memory := List Host.Cell

/-- One move of the host (00_scope.md R3; 60_exceptions.md R220). -/
inductive HostMove where
  /-- The host presents one command on `cmd_data` (30_encoding.md R80). -/
  | command (data : Command)
  /-- The host applies reset (70_reset_and_hazards.md R230). The palette and storage contents the reset leaves are
  unspecified: the move carries their draw, byte `a` of storage being entry `a` of `bytes` (log 5). -/
  | reset (pal : Palette) (bytes : List Byte)
deriving DecidableEq, Repr

/-- The machine's state: plain data. -/
structure State where
  /-- ENG_STATE, 10_state.md R20. -/
  engState : EngState
  /-- CFG_VARIANT, 10_state.md R22. -/
  cfgVariant : Variant
  /-- CFG_RBA, 10_state.md R23. -/
  cfgRba : Bool
  /-- PAL_SIZE, 10_state.md R24. -/
  palSize : BitVec 9
  /-- PAL[0..255], 10_state.md R25. -/
  pal : Palette
  /-- WIDTH, 10_state.md R26. -/
  width : Half
  /-- HEIGHT, 10_state.md R26. -/
  height : Half
  /-- BPP, 10_state.md R27. -/
  bpp : BitVec 6
  /-- BUF_SIZE, 10_state.md R28. -/
  bufSize : Word
  /-- BUF_LEN, 10_state.md R28. -/
  bufLen : Word
  /-- DIRTY_XL, DIRTY_YL, DIRTY_XH, DIRTY_YH, 10_state.md R29. -/
  dirty : DirtyRect
  /-- ERR_STICKY, 10_state.md R31. -/
  errSticky : BitVec 16
  /-- STORAGE[0..CAP-1], 10_state.md R32. -/
  storage : Memory
  /-- CAP, 00_scope.md R6: the model's argument, which no step changes (log 2). -/
  cap : Fin 4294967296
  /-- The moves the host is to make, the next one first; its head is what the command port shows (30_encoding.md R80;
  log 1). -/
  inbox : List HostMove
  /-- What the last step drove on the response port (30_encoding.md R80, R81); none where it gave no response (log 6). -/
  rsp : Option Response
deriving DecidableEq, Repr

/-- Why a step can stop with a fault. -/
inductive Fault where
  /-- Raised by the pixel commands when the cell of slot `slot` would reach a byte at or above CAP, an address that does
  not exist (20_memory.md R50). Safe: in every state that meets `Safety.Inv` no step raises it (log 8). -/
  | outsideStorage (slot : Nat)
deriving DecidableEq, Repr

/-- Why a step can refuse. -/
inductive Refusal where
  /-- Raised by exec's arm of an instruction that has no meaning yet; safe. No arm of this model raises it. -/
  | notModelled (mnemonic : String)
deriving DecidableEq, Repr

/-- The registers right after reset (10_state.md R35; 70_reset_and_hazards.md R230), for a given capacity and given
contents of what reset leaves unspecified. -/
def State.powerOn (cap : Fin 4294967296) (pal : Palette) (storage : Memory) : State where
  engState := .uninit
  cfgVariant := .v565
  cfgRba := false
  palSize := 0
  pal := pal
  width := 0
  height := 0
  bpp := 0
  bufSize := 0
  bufLen := 0
  dirty := .empty
  errSticky := 0
  storage := storage
  cap := cap
  inbox := []
  rsp := none

/-- The machine right after its first reset: PAL all 0 (log 3), no storage byte listed (log 4), no host move yet
(log 1). -/
def State.reset : State := State.powerOn Config.cap (Vector.replicate Config.palSlots ⟨0, 0, 0, 0⟩) []

end Sys2Proof.Machine
end

