-- ==== Sys2Proof/Machine/Flags.lean ====
section
/-! DEFINITION. Status codes, the sticky error bits, the dirty rectangle and the status view
(spec/10_state.md R29 to R31, R34; 60_exceptions.md R210; 42_pixel_write.md R152, R153). -/

namespace Sys2Proof.Machine

/-- The 2-bit encoding of ENG_STATE (10_state.md R20). -/
def engStateBits : EngState → BitVec 2
  | .uninit => 0
  | .ready => 1
  | .unusable => 2

/-- The 2-bit encoding of CFG_VARIANT (10_state.md R22). -/
def variantBits : Variant → BitVec 2
  | .v565 => 0
  | .v666 => 1
  | .indexed => 2

/-- The 4-bit STATUS code (60_exceptions.md R210). -/
def statusCode : Status → BitVec 4
  | .ok => 0x0
  | .errIllegal => 0x1
  | .errState => 0x2
  | .errUnusable => 0x3
  | .errAlloc => 0x4
  | .errConfig => 0x5
  | .errArg => 0x6
  | .errBounds => 0x7
  | .errVariant => 0x8

/-- ERR_STICKY with bit E set (10_state.md R31; 60_exceptions.md R212). -/
def stickyWith (sticky : BitVec 16) (e : Status) : BitVec 16 := sticky ||| (1#16 <<< (statusCode e).toNat)

/-- The derived flag DIRTY_EMPTY = (DIRTY_XL > DIRTY_XH) (10_state.md R30). -/
def dirtyEmpty (d : DirtyRect) : Bool := decide (d.xh < d.xl)

/-- The smaller of two coordinates. -/
def minHalf (a b : Half) : Half := if a ≤ b then a else b

/-- The larger of two coordinates. -/
def maxHalf (a b : Half) : Half := if a ≤ b then b else a

/-- `Widen(x, y)` (42_pixel_write.md R152). -/
def widenRect (d : DirtyRect) (x y : Half) : DirtyRect where
  xl := minHalf d.xl x
  yl := minHalf d.yl y
  xh := maxHalf d.xh x
  yh := maxHalf d.yh y

/-- The rectangle FILL sets: (0, 0, WIDTH-1, HEIGHT-1) (42_pixel_write.md R153). -/
def fullFrame (width height : Half) : DirtyRect where
  xl := 0
  yl := 0
  xh := width - 1
  yh := height - 1

/-- The 32-bit status view (10_state.md R34): [31:16] ERR_STICKY, [15:14] 0, [13:8] BPP, [7:6] 0, [5] DIRTY_EMPTY,
[4] CFG_RBA, [3:2] CFG_VARIANT, [1:0] ENG_STATE. -/
def statusView (s : State) : Word :=
  s.errSticky ++ 0#2 ++ s.bpp ++ 0#2 ++ BitVec.ofBool (dirtyEmpty s.dirty) ++ BitVec.ofBool s.cfgRba
    ++ variantBits s.cfgVariant ++ engStateBits s.engState

/-- The result of DIRTY_LO: (DIRTY_XL << 16) | DIRTY_YL (44_query_dirty.md R193). -/
def dirtyLoWord (d : DirtyRect) : Word := d.xl ++ d.yl

/-- The result of DIRTY_HI: (DIRTY_XH << 16) | DIRTY_YH (44_query_dirty.md R194). -/
def dirtyHiWord (d : DirtyRect) : Word := d.xh ++ d.yh

end Sys2Proof.Machine
end

