-- ==== Sys2Proof/Machine/Ops.lean ====
section
/-! DEFINITION. The shared operations: the storage bytes and the pixel primitives over them (spec/20_memory.md R50 to
R61), the register updates, the response and the one way an error is taken (60_exceptions.md R212), the state permissions
(R214) and reset (70_reset_and_hazards.md R230). -/

namespace Sys2Proof.Machine

/-- The outcome of a command. -/
abbrev Result := Host.Outcome State Fault Refusal

/-! ## Storage bytes -/

/-- What a storage byte that no entry lists reads as: 0x00 (DESIGN CHOICE, unsafe, log 4). -/
def unlistedByte : Byte := 0x00

/-- `MemRead(a, 1)` (20_memory.md R50). -/
def memRead : Memory → Nat → Byte
  | [], _ => unlistedByte
  | (b, v) :: rest, a => if b = a then v else memRead rest a

/-- `MemWrite(a, 1, v)` (20_memory.md R50), which keeps the canonical form. -/
def memWrite : Memory → Nat → Byte → Memory
  | [], a, v => if v = unlistedByte then [] else [(a, v)]
  | (b, u) :: rest, a, v =>
    if a < b then (if v = unlistedByte then (b, u) :: rest else (a, v) :: (b, u) :: rest)
    else if a = b then (if v = unlistedByte then rest else (a, v) :: rest)
    else (b, u) :: memWrite rest a v

/-- Every listed address is at least `lo`, addresses rise strictly, and no entry is the unlisted byte. -/
def memWfFrom : Nat → Memory → Bool
  | _, [] => true
  | lo, (a, v) :: rest => decide (lo ≤ a) && v != unlistedByte && memWfFrom (a + 1) rest

/-- The canonical form of storage. -/
def Memory.wf (m : Memory) : Bool := memWfFrom 0 m

/-- Every listed address is below `n`. -/
def memBelow (m : Memory) (n : Nat) : Bool := m.all fun cell => decide (cell.1 < n)

/-- Storage whose byte `a + k` is entry `k` of `bytes`: the draw of a reset (70_reset_and_hazards.md R230, log 5). -/
def memOfBytesFrom : Nat → List Byte → Memory
  | _, [] => []
  | a, v :: rest => if v = unlistedByte then memOfBytesFrom (a + 1) rest else (a, v) :: memOfBytesFrom (a + 1) rest

/-- Storage bit g is bit g % 8 of byte g / 8 (20_memory.md R51). -/
def storageBit (m : Memory) (g : Nat) : Bool := (memRead m (g / 8)).getLsbD (g % 8)

/-! ## The pixel primitives -/

/-- The loop of `PixGet` over its first `k` bits, from storage bit `base` (20_memory.md R54). -/
def pixGetBits (m : Memory) (base : Nat) : Nat → Nat
  | 0 => 0
  | k + 1 =>
    pixGetBits m base k ||| (((memRead m ((base + k) / 8)).toNat >>> ((base + k) % 8)) &&& 1) <<< k

/-- `PixGet(p)` at BPP = w (20_memory.md R54). -/
def pixGet (m : Memory) (w p : Nat) : Nat := pixGetBits m (p * w) w

/-- One turn of the loop of `PixSet`: storage bit g becomes b (20_memory.md R55). -/
def bitWrite (m : Memory) (g : Nat) (b : Bool) : Memory :=
  memWrite m (g / 8)
    ((memRead m (g / 8) &&& ~~~(1#8 <<< (g % 8))) ||| ((BitVec.ofBool b).setWidth 8 <<< (g % 8)))

/-- The loop of `PixSet` over the first `k` bits of `v`, from storage bit `base` (20_memory.md R55). -/
def pixSetBits (m : Memory) (base v : Nat) : Nat → Memory
  | 0 => m
  | k + 1 => bitWrite (pixSetBits m base v k) (base + k) (v.testBit k)

/-- `PixSet(p, v)` at BPP = w (20_memory.md R55). -/
def pixSet (m : Memory) (w p v : Nat) : Memory := pixSetBits m (p * w) v w

/-- `MemWrite(a, 1, (MemRead(a, 1) & ~mask) | (bits & mask))`: one merge of the pack algorithm (20_memory.md R56). -/
def mergeByte (m : Memory) (a : Nat) (mask bits : Byte) : Memory :=
  memWrite m a ((memRead m a &&& ~~~mask) ||| (bits &&& mask))

/-- `Pack(p, index)` at BPP = w (20_memory.md R56; the fit test is R59). -/
def pack (m : Memory) (w p : Nat) (index : Byte) : Memory :=
  let bitStart := p * w
  let bitEnd := bitStart + w
  let offsetStart := bitStart % 8
  let started := mergeByte m (bitStart / 8) (BitVec.ofNat 8 ((2 ^ w - 1) <<< offsetStart)) (index <<< offsetStart)
  if offsetStart + w ≤ 8 then started
  else
    let offsetEnd := bitEnd % 8
    mergeByte started (bitEnd / 8) (BitVec.ofNat 8 (2 ^ offsetEnd - 1)) (index >>> (w - offsetEnd))

/-- `Unpack(p)` at BPP = w (20_memory.md R57): the raw index, not clamped. -/
def unpack (m : Memory) (w p : Nat) : Nat :=
  let bitStart := p * w
  let offsetStart := bitStart % 8
  let low := (memRead m (bitStart / 8)).toNat >>> offsetStart
  let high :=
    if 8 < offsetStart + w then
      ((memRead m ((bitStart + w) / 8)).toNat &&& (2 ^ ((bitStart + w) % 8) - 1)) <<< (8 - offsetStart)
    else 0
  (low ||| high) &&& (2 ^ w - 1)

/-- `Store(p, v)` (42_pixel_write.md R151). -/
def storeCell (variant : Variant) (m : Memory) (w p v : Nat) : Memory :=
  match variant with
  | .v565 => pixSet m w p v
  | .v666 => pixSet m w p v
  | .indexed => pack m w p (BitVec.ofNat 8 v)

/-- The loop of FILL over its first `n` slots, in ascending order (42_pixel_write.md R153). -/
def fillCells (variant : Variant) (m : Memory) (w v : Nat) : Nat → Memory
  | 0 => m
  | n + 1 => storeCell variant (fillCells variant m w v n) w n v

/-- One more than the highest byte address that the pixel primitive of `variant` touches for slot p (20_memory.md R54 to
R57, R59). -/
def cellEnd (variant : Variant) (w p : Nat) : Nat :=
  match variant with
  | .indexed => if 8 < p * w % 8 + w then (p * w + w) / 8 + 1 else p * w / 8 + 1
  | .v565 => (p * w + w + 7) / 8
  | .v666 => (p * w + w + 7) / 8

/-! ## Register updates -/

/-- The response port shows (status, result). -/
def State.responded (s : State) (status : Status) (result : Word) : State :=
  { s with rsp := some ⟨status, result⟩ }

/-- ERR_STICKY[E] <- 1 (60_exceptions.md R212). -/
def State.stickied (s : State) (e : Status) : State := { s with errSticky := stickyWith s.errSticky e }

/-- CFG_VARIANT <- v; CFG_RBA <- rba (41_lifecycle.md R131). -/
def State.configured (s : State) (v : Variant) (rba : Bool) : State := { s with cfgVariant := v, cfgRba := rba }

/-- PAL_SIZE <- n (41_lifecycle.md R132). -/
def State.withPalSize (s : State) (n : BitVec 9) : State := { s with palSize := n }

/-- PAL[slot] <- c (41_lifecycle.md R133). -/
def State.withPalSlot (s : State) (slot : Byte) (c : Color) : State :=
  { s with pal := s.pal.set slot.toNat c slot.isLt }

/-- Storage becomes m. -/
def State.withStorage (s : State) (m : Memory) : State := { s with storage := m }

/-- The four dirty registers become d. -/
def State.withDirty (s : State) (d : DirtyRect) : State := { s with dirty := d }

/-- ENG_STATE <- UNUSABLE (41_lifecycle.md R137). -/
def State.madeUnusable (s : State) : State := { s with engState := .unusable }

/-- The register writes of `AllocOk(bpp, bytes)` (41_lifecycle.md R138). -/
def State.allocated (s : State) (width height : Half) (bpp bytes : Nat) : State :=
  { s with
    width := width
    height := height
    bpp := BitVec.ofNat 6 bpp
    bufSize := BitVec.ofNat 32 bytes
    bufLen := BitVec.ofNat 32 (width.toNat * height.toNat)
    dirty := .empty
    engState := .ready }

/-- The host's next move is taken: `rest` is left, and the response port shows no response yet. -/
def State.taken (s : State) (rest : List HostMove) : State := { s with inbox := rest, rsp := none }

/-! ## Responses, errors, permissions -/

/-- `respond(OK, result)` (00_scope.md R10; 30_encoding.md R81). -/
def respond (result : Word) (s : State) : Result := .next (s.responded .ok result)

/-- `raise Status(E)`: ERR_STICKY[E] <- 1, respond(E, 0), and nothing else (00_scope.md R10; 60_exceptions.md R212). It is
the one way an error is taken; the machine has no trap and no return from one (R217, R218). -/
def raiseStatus (e : Status) (s : State) : Result := .next ((s.stickied e).responded e 0)

/-- `AllocFail()` (41_lifecycle.md R137). -/
def allocFail (s : State) : Result := raiseStatus .errAlloc s.madeUnusable

/-- The state check of the commands permitted in UNINIT only (60_exceptions.md R213, R214). -/
def inUninit (s : State) (body : Result) : Result :=
  match s.engState with
  | .unusable => raiseStatus .errUnusable s
  | .ready => raiseStatus .errState s
  | .uninit => body

/-- The state check of the commands permitted in READY only (60_exceptions.md R213, R214). -/
def inReady (s : State) (body : Result) : Result :=
  match s.engState with
  | .unusable => raiseStatus .errUnusable s
  | .uninit => raiseStatus .errState s
  | .ready => body

/-- The variant check of the index commands (60_exceptions.md R213). -/
def inIndexed (s : State) (body : Result) : Result :=
  match s.cfgVariant with
  | .indexed => body
  | .v565 => raiseStatus .errVariant s
  | .v666 => raiseStatus .errVariant s

/-- Every byte of slot p's cell exists (20_memory.md R50: addresses 0 to CAP-1). -/
def cellFits (s : State) (p : Nat) : Bool := decide (cellEnd s.cfgVariant s.bpp.toNat p ≤ s.cap.val)

/-- `body`, if slot p's cell lies in storage; otherwise the access is to an address that does not exist (log 8). -/
def withCell (s : State) (p : Nat) (body : Result) : Result :=
  if cellFits s p then body else .fault (.outsideStorage p)

/-! ## Steps outside a command -/

/-- An illegal command is answered ERR_ILLEGAL (30_encoding.md R86). -/
def illegalCommand (s : State) : Result := raiseStatus .errIllegal s

/-- No command is outstanding: the engine is idle and gives no response (60_exceptions.md R225, log 7). -/
def idle (s : State) : Result := .next (s.taken [])

/-- Reset (70_reset_and_hazards.md R230): every register as 10_state.md R35 says, PAL and STORAGE as drawn (log 5),
no response; CAP stays, and the host's later moves stay. -/
def hostReset (s : State) (pal : Palette) (bytes : List Byte) (rest : List HostMove) : Result :=
  .next ((State.powerOn s.cap pal (memOfBytesFrom 0 (bytes.take s.cap.val))).taken rest)

end Sys2Proof.Machine
end

