-- ==== Sys2Proof/Machine/Operands.lean ====
section
/-! DEFINITION. What the commands compute from their operands: the color codec (spec/40_codec.md R100 to R110), the
positions (42_pixel_write.md R156), the palette search and lookup (R150; 43_pixel_read.md R170), the cell values and the
read paths (R151; R171, R172), the sizes of an allocation (41_lifecycle.md R135, R136). -/

namespace Sys2Proof.Machine

/-! ## The color codec -/

/-- `SCALE(v, S, D)`, floor division on exact integers (40_codec.md R100; log 15). -/
def scale (v s d : Nat) : Nat := d * v / s

/-- `ENC(c, k)` (40_codec.md R101). -/
def enc (c : Byte) (k : Nat) : Nat := scale c.toNat 255 (2 ^ k - 1)

/-- `PACK(c, rk, gk, bk)` (40_codec.md R102). White is not encoded. -/
def packChannels (c : Color) (rk gk bk : Nat) : Nat :=
  enc c.r rk <<< (gk + bk) ||| enc c.g gk <<< bk ||| enc c.b bk

/-- `ALIGN(P, n, T, rba)` (40_codec.md R102). -/
def align (p n t : Nat) (rba : Bool) : Nat := if rba then p else p <<< (t - n)

/-- `TO565(c)` (40_codec.md R103). -/
def to565 (rba : Bool) (c : Color) : Half := BitVec.ofNat 16 (align (packChannels c 5 6 5) 16 16 rba)

/-- `TO666(c)` (40_codec.md R104). -/
def to666 (rba : Bool) (c : Color) : Word := BitVec.ofNat 32 (align (packChannels c 6 6 6) 18 32 rba)

/-- `TO332(c)` (40_codec.md R105). -/
def to332 (c : Color) : Byte := BitVec.ofNat 8 (packChannels c 3 3 2)

/-- `TO233(c)` (40_codec.md R106). -/
def to233 (c : Color) : Byte := BitVec.ofNat 8 (packChannels c 2 3 3)

/-- `FROM332TO565(v)` (40_codec.md R107). -/
def from332To565 (v : Byte) : Half :=
  let r5 := scale (v.extractLsb' 5 3).toNat 7 31
  let g6 := scale (v.extractLsb' 2 3).toNat 7 63
  let b5 := scale (v.extractLsb' 0 2).toNat 3 31
  BitVec.ofNat 16 (r5 <<< 11 ||| g6 <<< 5 ||| b5)

/-- A channel code of maximum `max` widened to 8 bits: SCALE(v, max, 255) (40_codec.md R108, R109). -/
def widenChannel (v max : Nat) : Byte := BitVec.ofNat 8 (scale v max 255)

/-- `DEC565(v)` (40_codec.md R108). -/
def dec565 (v : Half) : Color :=
  .rgb (widenChannel (v.extractLsb' 11 5).toNat 31) (widenChannel (v.extractLsb' 5 6).toNat 63)
    (widenChannel (v.extractLsb' 0 5).toNat 31)

/-- The 18 channel bits of a 666 word: v[17:0] if CFG_RBA = 1, v[31:14] if CFG_RBA = 0 (40_codec.md R109). -/
def select666 (rba : Bool) (v : Word) : BitVec 18 := if rba then v.extractLsb' 0 18 else v.extractLsb' 14 18

/-- `DEC666(v)` (40_codec.md R109). -/
def dec666 (rba : Bool) (v : Word) : Color :=
  let p := select666 rba v
  .rgb (widenChannel (p.extractLsb' 12 6).toNat 63) (widenChannel (p.extractLsb' 6 6).toNat 63)
    (widenChannel (p.extractLsb' 0 6).toNat 63)

/-! ## Configuration operands and allocation sizes -/

/-- The variant that VAR selects; 3 is none (10_state.md R22; 41_lifecycle.md R131). -/
def variantOfBits (var : BitVec 2) : Option Variant :=
  match var.toNat with
  | 0 => some .v565
  | 1 => some .v666
  | 2 => some .indexed
  | _ => none

/-- The smallest width from `w` on whose 2^w reaches psize, over the next `fuel` widths. -/
def widthFrom (psize : Nat) : Nat → Nat → Nat
  | 0, w => w
  | fuel + 1, w => if psize ≤ 2 ^ w then w else widthFrom psize fuel (w + 1)

/-- `BppOf(variant, psize)` (41_lifecycle.md R136): for INDEXED the smallest w ≥ 1 with 2^w ≥ psize. -/
def bppOf (variant : Variant) (psize : BitVec 9) : Nat :=
  match variant with
  | .v565 => 16
  | .v666 => 32
  | .indexed => widthFrom psize.toNat 9 1

/-- ceil(WIDTH * HEIGHT * bpp / 8), an exact integer (41_lifecycle.md R135). -/
def byteCount (width height : Half) (bpp : Nat) : Nat := (width.toNat * height.toNat * bpp + 7) / 8

/-! ## Positions -/

/-- `InFrame(x, y)` (42_pixel_write.md R156). -/
def inFrame (s : State) (x y : Half) : Bool := decide (x < s.width) && decide (y < s.height)

/-- The linear position x + y * WIDTH (42_pixel_write.md R156). -/
def slotOf (s : State) (x y : Half) : Nat := x.toNat + y.toNat * s.width.toNat

/-! ## The palette -/

/-- PAL[slot] (10_state.md R25). -/
def palSlot (s : State) (slot : Byte) : Color := s.pal[slot.toNat]'slot.isLt

/-- The (r, g, b) match of the palette search; white is not compared (42_pixel_write.md R150). -/
def sameRgb (c e : Color) : Bool := e.r == c.r && e.g == c.g && e.b == c.b

/-- `PalFind(c)`: the lowest matching index below PAL_SIZE, or 0 (42_pixel_write.md R150). -/
def palFind (s : State) (c : Color) : Nat :=
  ((s.pal.toList.take s.palSize.toNat).findIdx? (sameRgb c)).getD 0

/-- `PalColor(i)`: the palette lookup with the clamp i >= PAL_SIZE to 0 (43_pixel_read.md R170). -/
def palColor (s : State) (i : Nat) : Color :=
  if s.palSize.toNat ≤ i then palSlot s 0 else palSlot s (BitVec.ofNat 8 i)

/-! ## Cell values and read paths -/

/-- `StoreVal(c)` (42_pixel_write.md R151). -/
def storeVal (s : State) (c : Color) : Nat :=
  match s.cfgVariant with
  | .v565 => (to565 s.cfgRba c).toNat
  | .v666 => (to666 s.cfgRba c).toNat
  | .indexed => palFind s c

/-- Storage after `Store(p, v)` (42_pixel_write.md R151). -/
def stored (s : State) (p v : Nat) : Memory := storeCell s.cfgVariant s.storage s.bpp.toNat p v

/-- Storage after FILL's loop: `Store(p, v)` for every slot p below BUF_LEN (42_pixel_write.md R153). -/
def filled (s : State) (v : Nat) : Memory := fillCells s.cfgVariant s.storage s.bpp.toNat v s.bufLen.toNat

/-- `PixGet(p)` (20_memory.md R54). -/
def cellBits (s : State) (p : Nat) : Nat := pixGet s.storage s.bpp.toNat p

/-- `Unpack(p)` (20_memory.md R57). -/
def rawIndex (s : State) (p : Nat) : Nat := unpack s.storage s.bpp.toNat p

/-- `Read565(p)` (43_pixel_read.md R171). -/
def read565 (s : State) (p : Nat) : Half :=
  match s.cfgVariant with
  | .v565 => BitVec.ofNat 16 (cellBits s p)
  | .v666 => to565 s.cfgRba (dec666 s.cfgRba (BitVec.ofNat 32 (cellBits s p)))
  | .indexed => to565 s.cfgRba (palColor s (rawIndex s p))

/-- `Read666(p)` (43_pixel_read.md R172). -/
def read666 (s : State) (p : Nat) : Word :=
  match s.cfgVariant with
  | .v565 => to666 s.cfgRba (dec565 (BitVec.ofNat 16 (cellBits s p)))
  | .v666 => BitVec.ofNat 32 (cellBits s p)
  | .indexed => to666 s.cfgRba (palColor s (rawIndex s p))

/-! ## The checks that several commands share -/

/-- The bounds check and the cell of a coordinate command (42_pixel_write.md R156). -/
def atPixel (s : State) (x y : Half) (body : Nat → Result) : Result :=
  if inFrame s x y then withCell s (slotOf s x y) (body (slotOf s x y)) else raiseStatus .errBounds s

/-- The bounds check and the cell of a position command (43_pixel_read.md R174). -/
def atPosition (s : State) (pos : Word) (body : Nat → Result) : Result :=
  if pos < s.bufLen then withCell s pos.toNat (body pos.toNat) else raiseStatus .errBounds s

/-- `body`, if every cell FILL writes lies in storage: the last one reaches highest (log 8). -/
def withEveryCell (s : State) (body : Result) : Result :=
  if s.bufLen = 0 then body else withCell s (s.bufLen.toNat - 1) body

end Sys2Proof.Machine
end

