-- ==== Sys2Proof/Machine/Codec.lean ====
section
/-! DEFINITION. The meanings of the codec commands (spec/40_codec.md R111 to R117), permitted in every ENG_STATE. -/

namespace Sys2Proof.Machine

/-- CVT_565 (40_codec.md R111). -/
def execCvt565 (color : Color) (s : State) : Result := respond ((to565 s.cfgRba color).setWidth 32) s

/-- CVT_666 (40_codec.md R112). -/
def execCvt666 (color : Color) (s : State) : Result := respond (to666 s.cfgRba color) s

/-- CVT_332 (40_codec.md R113). -/
def execCvt332 (color : Color) (s : State) : Result := respond ((to332 color).setWidth 32) s

/-- CVT_233 (40_codec.md R114). -/
def execCvt233 (color : Color) (s : State) : Result := respond ((to233 color).setWidth 32) s

/-- CVT_332_TO_565 (40_codec.md R115): VALUE[31:8] is ignored. -/
def execCvt332To565 (value : Word) (s : State) : Result :=
  respond ((from332To565 (value.extractLsb' 0 8)).setWidth 32) s

/-- CVT_565_TO_RGB (40_codec.md R116): VALUE[31:16] is ignored. -/
def execCvt565ToRgb (value : Word) (s : State) : Result :=
  respond (wordOfColor (dec565 (value.extractLsb' 0 16))) s

/-- CVT_666_TO_RGB (40_codec.md R117). -/
def execCvt666ToRgb (value : Word) (s : State) : Result := respond (wordOfColor (dec666 s.cfgRba value)) s

end Sys2Proof.Machine
end

