-- ==== Sys2Proof/Machine/Lifecycle.lean ====
section
/-! DEFINITION. The meanings of the lifecycle and configuration commands (spec/41_lifecycle.md). -/

namespace Sys2Proof.Machine

/-- NOP (41_lifecycle.md R130). -/
def execNop (s : State) : Result := respond 0 s

/-- CFG_SET (41_lifecycle.md R131). -/
def execCfgSet (var : BitVec 2) (rba : Bool) (s : State) : Result :=
  inUninit s <|
    match variantOfBits var with
    | none => raiseStatus .errArg s
    | some v => respond 0 (s.configured v rba)

/-- PAL_SIZE (41_lifecycle.md R132). -/
def execPalSize (psize : BitVec 9) (s : State) : Result :=
  inUninit s <|
    if psize.toNat = 0 ∨ 256 < psize.toNat then raiseStatus .errArg s
    else respond 0 (s.withPalSize psize)

/-- PAL_WRITE (41_lifecycle.md R133). -/
def execPalWrite (slot : Byte) (color : Color) (s : State) : Result :=
  inUninit s <| respond 0 (s.withPalSlot slot color)

/-- PAL_READ (41_lifecycle.md R134). -/
def execPalRead (slot : Byte) (s : State) : Result := respond (wordOfColor (palSlot s slot)) s

/-- The allocation of INIT: the test against CAP, then R137 or R138 (41_lifecycle.md R135). -/
def allocate (width height : Half) (s : State) : Result :=
  let bpp := bppOf s.cfgVariant s.palSize
  let bytes := byteCount width height bpp
  if s.cap.val < bytes then allocFail s
  else respond 0 (s.allocated width height bpp bytes)

/-- INIT (41_lifecycle.md R135 to R139). -/
def execInit (width height : Half) (s : State) : Result :=
  inUninit s <|
    if width = 0 ∨ height = 0 then raiseStatus .errArg s
    else if s.cfgVariant = .indexed ∧ s.palSize = 0 then raiseStatus .errConfig s
    else allocate width height s

end Sys2Proof.Machine
end

