-- ==== Sys2Proof/Machine/PixelRead.lean ====
section
/-! DEFINITION. The meanings of the pixel read commands (spec/43_pixel_read.md). -/

namespace Sys2Proof.Machine

/-- GET565_XY (43_pixel_read.md R173). -/
def execGet565Xy (x y : Half) (s : State) : Result :=
  inReady s <| atPixel s x y fun p => respond ((read565 s p).setWidth 32) s

/-- GET565_POS (43_pixel_read.md R174). -/
def execGet565Pos (pos : Word) (s : State) : Result :=
  inReady s <| atPosition s pos fun p => respond ((read565 s p).setWidth 32) s

/-- GET666_XY (43_pixel_read.md R175). -/
def execGet666Xy (x y : Half) (s : State) : Result :=
  inReady s <| atPixel s x y fun p => respond (read666 s p) s

/-- GET666_POS (43_pixel_read.md R176). -/
def execGet666Pos (pos : Word) (s : State) : Result :=
  inReady s <| atPosition s pos fun p => respond (read666 s p) s

/-- GET_INDEX_XY (43_pixel_read.md R177). -/
def execGetIndexXy (x y : Half) (s : State) : Result :=
  inReady s <| inIndexed s <| atPixel s x y fun p => respond (BitVec.ofNat 32 (rawIndex s p)) s

/-- GET_INDEX_POS (43_pixel_read.md R178). -/
def execGetIndexPos (pos : Word) (s : State) : Result :=
  inReady s <| inIndexed s <| atPosition s pos fun p => respond (BitVec.ofNat 32 (rawIndex s p)) s

end Sys2Proof.Machine
end

