-- ==== Sys2Proof/Machine/PixelWrite.lean ====
section
/-! DEFINITION. The meanings of the pixel write commands (spec/42_pixel_write.md). -/

namespace Sys2Proof.Machine

/-- FILL (42_pixel_write.md R153). -/
def execFill (color : Color) (s : State) : Result :=
  inReady s <| withEveryCell s <|
    respond 0 ((s.withStorage (filled s (storeVal s color))).withDirty (fullFrame s.width s.height))

/-- SET_PIXEL (42_pixel_write.md R154). -/
def execSetPixel (x y : Half) (color : Color) (s : State) : Result :=
  inReady s <| atPixel s x y fun p =>
    respond 0 ((s.withStorage (stored s p (storeVal s color))).withDirty (widenRect s.dirty x y))

/-- SET_PIXEL_INDEX (42_pixel_write.md R155). -/
def execSetPixelIndex (x y : Half) (index : Byte) (s : State) : Result :=
  inReady s <| inIndexed s <| atPixel s x y fun p =>
    respond 0 ((s.withStorage (pack s.storage s.bpp.toNat p index)).withDirty (widenRect s.dirty x y))

end Sys2Proof.Machine
end

