-- ==== Sys2Proof/Machine/Query.lean ====
section
/-! DEFINITION. The meanings of the query and dirty-rectangle commands (spec/44_query_dirty.md). -/

namespace Sys2Proof.Machine

/-- BUF_SIZE (44_query_dirty.md R190). -/
def execBufSize (s : State) : Result := respond s.bufSize s

/-- BUF_LENGTH (44_query_dirty.md R191). -/
def execBufLength (s : State) : Result := respond s.bufLen s

/-- PIXEL_BITS (44_query_dirty.md R192). -/
def execPixelBits (s : State) : Result := respond (s.bpp.setWidth 32) s

/-- DIRTY_LO (44_query_dirty.md R193). -/
def execDirtyLo (s : State) : Result := respond (dirtyLoWord s.dirty) s

/-- DIRTY_HI (44_query_dirty.md R194). -/
def execDirtyHi (s : State) : Result := respond (dirtyHiWord s.dirty) s

/-- RESET_DIRTY (44_query_dirty.md R195). -/
def execResetDirty (s : State) : Result := inReady s <| respond 0 (s.withDirty .empty)

/-- STATUS_READ (44_query_dirty.md R196; 10_state.md R34). It clears nothing (60_exceptions.md R215). -/
def execStatusRead (s : State) : Result := respond (statusView s) s

end Sys2Proof.Machine
end

