-- ==== Sys2Proof/Machine/Dispatch.lean ====
section
/-! DEFINITION. One arm per command, in the order of spec/opcode_table.json. -/

namespace Sys2Proof.Machine

def exec (i : Instr) (s : State) : Host.Outcome State Fault Refusal :=
  match i with
  | .nop => Sys2Proof.Machine.execNop s
  | .cfgSet var rba => Sys2Proof.Machine.execCfgSet var rba s
  | .palSize psize => Sys2Proof.Machine.execPalSize psize s
  | .palWrite slot color => Sys2Proof.Machine.execPalWrite slot color s
  | .palRead slot => Sys2Proof.Machine.execPalRead slot s
  | .init width height => Sys2Proof.Machine.execInit width height s
  | .fill color => Sys2Proof.Machine.execFill color s
  | .setPixel x y color => Sys2Proof.Machine.execSetPixel x y color s
  | .setPixelIndex x y index => Sys2Proof.Machine.execSetPixelIndex x y index s
  | .get565Xy x y => Sys2Proof.Machine.execGet565Xy x y s
  | .get565Pos pos => Sys2Proof.Machine.execGet565Pos pos s
  | .get666Xy x y => Sys2Proof.Machine.execGet666Xy x y s
  | .get666Pos pos => Sys2Proof.Machine.execGet666Pos pos s
  | .getIndexXy x y => Sys2Proof.Machine.execGetIndexXy x y s
  | .getIndexPos pos => Sys2Proof.Machine.execGetIndexPos pos s
  | .bufSize => Sys2Proof.Machine.execBufSize s
  | .bufLength => Sys2Proof.Machine.execBufLength s
  | .pixelBits => Sys2Proof.Machine.execPixelBits s
  | .dirtyLo => Sys2Proof.Machine.execDirtyLo s
  | .dirtyHi => Sys2Proof.Machine.execDirtyHi s
  | .resetDirty => Sys2Proof.Machine.execResetDirty s
  | .statusRead => Sys2Proof.Machine.execStatusRead s
  | .cvt565 color => Sys2Proof.Machine.execCvt565 color s
  | .cvt666 color => Sys2Proof.Machine.execCvt666 color s
  | .cvt332 color => Sys2Proof.Machine.execCvt332 color s
  | .cvt233 color => Sys2Proof.Machine.execCvt233 color s
  | .cvt332To565 value => Sys2Proof.Machine.execCvt332To565 value s
  | .cvt565ToRgb value => Sys2Proof.Machine.execCvt565ToRgb value s
  | .cvt666ToRgb value => Sys2Proof.Machine.execCvt666ToRgb value s

end Sys2Proof.Machine
end

