-- ==== Sys2Proof/Machine/Step.lean ====
section
/-! DEFINITION. One step: the engine takes the host's next move (spec/20_memory.md R70; 30_encoding.md R80). -/

namespace Sys2Proof.Machine

/-- One step of the machine. A command is decoded and executed with its response, as one atomic step; an illegal command
is answered ERR_ILLEGAL; a reset is taken; with no move to take the engine is idle. -/
def step (s : State) : Host.Outcome State Fault Refusal :=
  match s.inbox with
  | [] => idle s
  | .reset pal bytes :: rest => hostReset s pal bytes rest
  | .command data :: rest =>
    match decode data with
    | .ok i => exec i (s.taken rest)
    | .error _ => illegalCommand (s.taken rest)

/-- `s` with an opcode-table word as the command the host presents next (log 1, log 11). -/
def State.withFetchWord (s : State) (nbits w : Nat) : State :=
  { s with inbox := .command (tableCommand nbits w) :: s.inbox }

end Sys2Proof.Machine
end

