-- ==== Sys2Proof/Machine/Assembler.lean ====
section
/-! DEFINITION. The assembler syntax and the pseudo-instructions of spec/30_encoding.md R89 to R91, as functions of the
characters of a line. The engine never sees them: it executes command words. What R89 leaves open (spaces beside commas,
the case of hexadecimal digits) is log 14. -/

namespace Sys2Proof.Machine

/-! ## Pseudo-instructions (R90) -/

/-- `PAL_WRITE k, c` for the colors in slot order, from slot k. -/
def palWritesFrom : Nat → List Color → List Instr
  | _, [] => []
  | k, c :: rest => .palWrite (BitVec.ofNat 8 k) c :: palWritesFrom (k + 1) rest

/-- The expansion of a pseudo-instruction (30_encoding.md R90). -/
def expandPseudo : Pseudo → List Instr
  | .clear => [.fill ⟨0, 0, 0, 0⟩]
  | .palette colors => .palSize (BitVec.ofNat 9 colors.length) :: palWritesFrom 0 colors
  | .dirty => [.dirtyLo, .dirtyHi]
  | .flushDone => [.resetDirty]

/-! ## Reading operands -/

/-- The value of a hexadecimal digit. -/
def hexDigit (c : Char) : Option Nat :=
  let n := c.toNat
  if 48 ≤ n ∧ n ≤ 57 then some (n - 48)
  else if 65 ≤ n ∧ n ≤ 70 then some (n - 55)
  else if 97 ≤ n ∧ n ≤ 102 then some (n - 87)
  else none

/-- The number that digits of base `base` spell after `acc`. -/
def digitsFrom (base : Nat) : Nat → List Char → Option Nat
  | acc, [] => some acc
  | acc, c :: rest =>
    match hexDigit c with
    | some d => if d < base then digitsFrom base (acc * base + d) rest else none
    | none => none

/-- An unsigned integer, decimal or `0x` hexadecimal (30_encoding.md R89). -/
def readNumber : List Char → Option Nat
  | [] => none
  | '0' :: 'x' :: [] => none
  | '0' :: 'x' :: digits => digitsFrom 16 0 digits
  | digits => digitsFrom 10 0 digits

/-- An unsigned integer that fits an n-bit field; the assembler "refuses an operand that does not fit its field". -/
def readField (n : Nat) (text : List Char) : Option (BitVec n) :=
  match readNumber text with
  | some v => if v < 2 ^ n then some (BitVec.ofNat n v) else none
  | none => none

/-- A color: `#RRGGBBWW`, or `#RRGGBB` with w = 0 (30_encoding.md R89). -/
def readColor : List Char → Option Color
  | '#' :: digits =>
    match digits.length, digitsFrom 16 0 digits with
    | 8, some v => some (colorOfWord (BitVec.ofNat 32 v))
    | 6, some v => some (colorOfWord (BitVec.ofNat 32 (v * 256)))
    | _, _ => none
  | _ => none

/-- A variant name, as its VAR value (30_encoding.md R89; 10_state.md R22). -/
def readVariant (text : List Char) : Option (BitVec 2) :=
  if text = "V565".toList then some 0
  else if text = "V666".toList then some 1
  else if text = "INDEXED".toList then some 2
  else none

/-- RBA: `0` or `1` (30_encoding.md R89). -/
def readRba : List Char → Option Bool
  | ['0'] => some false
  | ['1'] => some true
  | _ => none

/-! ## Reading a line -/

/-- The operand shapes of the table of 30_encoding.md R89. -/
inductive AsmForm where
  | plain (i : Instr)
  | variantRba (f : BitVec 2 → Bool → Instr)
  | count (f : BitVec 9 → Instr)
  | slotColor (f : Byte → Color → Instr)
  | slot (f : Byte → Instr)
  | pair (f : Half → Half → Instr)
  | color (f : Color → Instr)
  | pairColor (f : Half → Half → Color → Instr)
  | pairIndex (f : Half → Half → Byte → Instr)
  | word (f : Word → Instr)

/-- The mnemonics of 30_encoding.md R84 and their operand shapes (R89). -/
def asmForms : List (String × AsmForm) :=
  [("NOP", .plain .nop), ("CFG_SET", .variantRba .cfgSet), ("PAL_SIZE", .count .palSize),
   ("PAL_WRITE", .slotColor .palWrite), ("PAL_READ", .slot .palRead), ("INIT", .pair .init), ("FILL", .color .fill),
   ("SET_PIXEL", .pairColor .setPixel), ("SET_PIXEL_INDEX", .pairIndex .setPixelIndex)] ++
  [("GET565_XY", .pair .get565Xy), ("GET565_POS", .word .get565Pos), ("GET666_XY", .pair .get666Xy),
   ("GET666_POS", .word .get666Pos), ("GET_INDEX_XY", .pair .getIndexXy), ("GET_INDEX_POS", .word .getIndexPos)] ++
  [("BUF_SIZE", .plain .bufSize), ("BUF_LENGTH", .plain .bufLength), ("PIXEL_BITS", .plain .pixelBits),
   ("DIRTY_LO", .plain .dirtyLo), ("DIRTY_HI", .plain .dirtyHi), ("RESET_DIRTY", .plain .resetDirty),
   ("STATUS_READ", .plain .statusRead)] ++
  [("CVT_565", .color .cvt565), ("CVT_666", .color .cvt666), ("CVT_332", .color .cvt332), ("CVT_233", .color .cvt233),
   ("CVT_332_TO_565", .word .cvt332To565), ("CVT_565_TO_RGB", .word .cvt565ToRgb),
   ("CVT_666_TO_RGB", .word .cvt666ToRgb)]

/-- The instruction of a form with these operand texts (30_encoding.md R89). -/
def applyForm (form : AsmForm) (operands : List (List Char)) : Option Instr :=
  match form, operands with
  | .plain i, [] => some i
  | .variantRba f, [v, r] => do some (f (← readVariant v) (← readRba r))
  | .count f, [n] => do some (f (← readField 9 n))
  | .slotColor f, [k, c] => do some (f (← readField 8 k) (← readColor c))
  | .slot f, [k] => do some (f (← readField 8 k))
  | .pair f, [x, y] => do some (f (← readField 16 x) (← readField 16 y))
  | .color f, [c] => do some (f (← readColor c))
  | .pairColor f, [x, y, c] => do some (f (← readField 16 x) (← readField 16 y) (← readColor c))
  | .pairIndex f, [x, y, k] => do some (f (← readField 16 x) (← readField 16 y) (← readField 8 k))
  | .word f, [v] => do some (f (← readField 32 v))
  | _, _ => none

/-- The pieces of a text between its commas. -/
def splitCommas : List Char → List (List Char)
  | [] => [[]]
  | c :: rest =>
    match c == ',', splitCommas rest with
    | true, pieces => [] :: pieces
    | false, piece :: pieces => (c :: piece) :: pieces
    | false, [] => [[c]]

/-- A text without the spaces at its two ends. -/
def stripSpaces (text : List Char) : List Char :=
  ((text.dropWhile (· == ' ')).reverse.dropWhile (· == ' ')).reverse

/-- The operand texts after the mnemonic: none if only spaces follow (30_encoding.md R89). -/
def operandTexts (text : List Char) : List (List Char) :=
  if stripSpaces text = [] then [] else (splitCommas text).map stripSpaces

/-- The pseudo-instruction a line spells (30_encoding.md R90). -/
def readPseudo (mnemonic : List Char) (operands : List (List Char)) : Option Pseudo :=
  if mnemonic = "CLEAR".toList ∧ operands = [] then some .clear
  else if mnemonic = "DIRTY".toList ∧ operands = [] then some .dirty
  else if mnemonic = "FLUSH_DONE".toList ∧ operands = [] then some .flushDone
  else if mnemonic = "PALETTE".toList ∧ 1 ≤ operands.length ∧ operands.length ≤ 256 then
    (operands.mapM readColor).map .palette
  else none

/-- The instructions that one line of assembler text stands for: the mnemonic, then its operands separated by commas
(30_encoding.md R89), or the expansion of a pseudo-instruction (R90). -/
def assembleLine (line : List Char) : Option (List Instr) :=
  let text := stripSpaces line
  let mnemonic := text.takeWhile (· != ' ')
  let operands := operandTexts (text.dropWhile (· != ' '))
  match asmForms.find? fun row => row.1.toList == mnemonic with
  | some row => (applyForm row.2 operands).map fun i => [i]
  | none => (readPseudo mnemonic operands).map expandPseudo

/-- The command words of one line of assembler text (30_encoding.md R91). -/
def assembleWords (line : List Char) : Option (List Command) := (assembleLine line).map fun is => is.map encode

end Sys2Proof.Machine
end

