-- ==== Sys2Proof/WellFormed.lean ====
section
/-! DEFINITION. Which commands carry argument values the engine takes. The types of `Instr` already hold every operand
to the width of its field (spec/30_encoding.md R82), so EVERY term of `Instr` has an encoding and decodes; what is left
to check is R87's list of field values that are "argument errors that the command's own rule checks": VAR = 3, PSIZE = 0
or PSIZE > 256, WIDTH = 0, HEIGHT = 0 (log 17). -/

namespace Sys2Proof

/-- No field value of the command is out of range (30_encoding.md R87; the ERR_ARG row of 60_exceptions.md R210). -/
def Instr.wellFormed : Instr → Bool
  | .cfgSet var _ => var != 3
  | .palSize psize => psize != 0 && decide (psize.toNat ≤ 256)
  | .init width height => width != 0 && height != 0
  | .nop | .palWrite .. | .palRead .. | .fill .. | .setPixel .. | .setPixelIndex .. | .get565Xy .. | .get565Pos ..
  | .get666Xy .. | .get666Pos .. | .getIndexXy .. | .getIndexPos .. | .bufSize | .bufLength | .pixelBits | .dirtyLo
  | .dirtyHi | .resetDirty | .statusRead | .cvt565 .. | .cvt666 .. | .cvt332 .. | .cvt233 .. | .cvt332To565 ..
  | .cvt565ToRgb .. | .cvt666ToRgb .. => true

/-- `PALETTE c0, ..., c(n-1)` is a form of 30_encoding.md R90 with 1 ≤ n ≤ 256 only. -/
def Pseudo.wellFormed : Pseudo → Bool
  | .palette colors => decide (1 ≤ colors.length) && decide (colors.length ≤ 256)
  | .clear | .dirty | .flushDone => true

end Sys2Proof
end

