-- ==== Sys2Proof/Safety.lean ====
section
/-! DEFINITION. The terms in which claims about FPSE-1 are stated: the invariant of the reachable states, the permission
table and the precedence of errors (spec/60_exceptions.md R213, R214), the cell of a slot (20_memory.md R52), the least
pixel bit width (41_lifecycle.md R136). -/

namespace Sys2Proof.Safety

open Sys2Proof.Machine

/-- What every reachable state satisfies. -/
structure Inv (s : State) : Prop where
  /-- Storage has its canonical form. -/
  storageCanonical : Memory.wf s.storage = true
  /-- Storage bytes exist at 0 to CAP-1 only (20_memory.md R50). -/
  storageBelowCap : memBelow s.storage s.cap.val = true
  /-- 1 ≤ CAP (00_scope.md R6). -/
  capPositive : 1 ≤ s.cap.val
  /-- PAL_SIZE is 0 (not configured) or 1 to 256 (10_state.md R24). -/
  palSizeLegal : s.palSize.toNat ≤ 256
  /-- ERR_STICKY bit 0 and bits 9 to 15 are 0 (10_state.md R31). -/
  stickyReserved : s.errSticky &&& 0xFE01 = 0
  /-- The dirty rectangle is empty or lies in the frame (10_state.md R30). -/
  dirtyLegal : s.dirty = .empty ∨
    (s.dirty.xl ≤ s.dirty.xh ∧ s.dirty.xh < s.width ∧ s.dirty.yl ≤ s.dirty.yh ∧ s.dirty.yh < s.height)
  /-- Outside READY there is no buffer (10_state.md R26 to R28; 41_lifecycle.md R137). -/
  noBuffer : s.engState ≠ .ready →
    s.width = 0 ∧ s.height = 0 ∧ s.bpp = 0 ∧ s.bufSize = 0 ∧ s.bufLen = 0 ∧ s.dirty = .empty
  /-- In READY the cached values are those of INIT, and the buffer fits (10_state.md R26 to R28; 41_lifecycle.md R135). -/
  buffer : s.engState = .ready →
    s.width ≠ 0 ∧ s.height ≠ 0 ∧ s.bpp.toNat = bppOf s.cfgVariant s.palSize ∧
    (s.cfgVariant = .indexed → s.palSize ≠ 0) ∧
    s.bufLen.toNat = s.width.toNat * s.height.toNat ∧
    s.bufSize.toNat = (s.width.toNat * s.height.toNat * s.bpp.toNat + 7) / 8 ∧
    s.bufSize.toNat ≤ s.cap.val
  /-- On any error RESULT is 0 (30_encoding.md R81). -/
  errorResultZero : ∀ r, s.rsp = some r → r.status ≠ .ok → r.result = 0

/-- What a command that completes with error status `e`, whose STATUS code is `bit`, leaves: the sticky bit, the response
(e, 0), and nothing else (60_exceptions.md R212). -/
def refusedWith (s : State) (e : Status) (bit : Nat) : State :=
  { s with errSticky := s.errSticky ||| BitVec.ofNat 16 (2 ^ bit), rsp := some ⟨e, 0⟩ }

/-- What a command that completes with OK and RESULT `v`, and changes nothing, leaves. -/
def answered (s : State) (v : Word) : State := { s with rsp := some ⟨.ok, v⟩ }

/-- The least pixel bit width of a variant and a palette size (41_lifecycle.md R136). -/
def leastWidth (variant : Variant) (psize w : Nat) : Prop :=
  match variant with
  | .v565 => w = 16
  | .v666 => w = 32
  | .indexed => 1 ≤ w ∧ psize ≤ 2 ^ w ∧ ∀ v, 1 ≤ v → psize ≤ 2 ^ v → w ≤ v

/-- `v` is the value of slot p's cell: bit k of v is storage bit p*BPP + k for k < BPP (20_memory.md R52). -/
def cellHolds (s : State) (p v : Nat) : Prop :=
  v < 2 ^ s.bpp.toNat ∧ ∀ k, k < s.bpp.toNat → v.testBit k = storageBit s.storage (p * s.bpp.toNat + k)

/-- Storage bit g lies outside slot p's cell (20_memory.md R52). -/
def outsideCell (s : State) (p g : Nat) : Prop := g < p * s.bpp.toNat ∨ p * s.bpp.toNat + s.bpp.toNat ≤ g

/-- Byte address a holds no bit of slot p's cell (20_memory.md R51, R52). -/
def outsideCellBytes (s : State) (p a : Nat) : Prop :=
  8 * a + 8 ≤ p * s.bpp.toNat ∨ p * s.bpp.toNat + s.bpp.toNat ≤ 8 * a

/-- The rectangle covers the pixel (x, y); an empty one covers none (10_state.md R29, R30). -/
def covers (d : DirtyRect) (x y : Half) : Prop := d.xl ≤ x ∧ x ≤ d.xh ∧ d.yl ≤ y ∧ y ≤ d.yh

/-- The 565 reading of a cell that holds v (43_pixel_read.md R170, R171). -/
def read565Of (s : State) (v : Nat) : Word :=
  match s.cfgVariant with
  | .v565 => BitVec.ofNat 32 v
  | .v666 => (to565 s.cfgRba (dec666 s.cfgRba (BitVec.ofNat 32 v))).setWidth 32
  | .indexed =>
    (to565 s.cfgRba (if s.palSize.toNat ≤ v then palSlot s 0 else palSlot s (BitVec.ofNat 8 v))).setWidth 32

/-- The 666 reading of a cell that holds v (43_pixel_read.md R170, R172). -/
def read666Of (s : State) (v : Nat) : Word :=
  match s.cfgVariant with
  | .v565 => to666 s.cfgRba (dec565 (BitVec.ofNat 16 v))
  | .v666 => BitVec.ofNat 32 v
  | .indexed => to666 s.cfgRba (if s.palSize.toNat ≤ v then palSlot s 0 else palSlot s (BitVec.ofNat 8 v))

/-- The opcodes whose commands use W1 (30_encoding.md R82: formats FDIM, FXY, FXYI, FPOS, FV). -/
def usesW1 (opc : Nat) : Bool :=
  opc == 0x05 || opc == 0x11 || opc == 0x12 || (0x20 ≤ opc && opc ≤ 0x25) || (0x44 ≤ opc && opc ≤ 0x46)

/-- The opcodes whose commands use W2, the COLOR word (30_encoding.md R82). -/
def usesW2 (opc : Nat) : Bool := opc == 0x03 || opc == 0x10 || opc == 0x11 || (0x40 ≤ opc && opc ≤ 0x43)

/-- The next move of the host is a reset. -/
def resetNext (s : State) : Prop := ∃ pal bytes rest, s.inbox = .reset pal bytes :: rest

/-! ## Permissions and precedence -/

/-- In which states a command is permitted (60_exceptions.md R214). -/
inductive Permission where
  | always
  | uninitOnly
  | readyOnly
deriving DecidableEq, Repr

/-- The rows of the table of 60_exceptions.md R214. -/
def permission : Instr → Permission
  | .nop | .palRead .. | .bufSize | .bufLength | .pixelBits | .dirtyLo | .dirtyHi | .statusRead | .cvt565 ..
  | .cvt666 .. | .cvt332 .. | .cvt233 .. | .cvt332To565 .. | .cvt565ToRgb .. | .cvt666ToRgb .. => .always
  | .cfgSet .. | .palSize .. | .palWrite .. | .init .. => .uninitOnly
  | .fill .. | .setPixel .. | .setPixelIndex .. | .get565Xy .. | .get565Pos .. | .get666Xy .. | .get666Pos ..
  | .getIndexXy .. | .getIndexPos .. | .resetDirty => .readyOnly

/-- The index commands (60_exceptions.md R210, ERR_VARIANT). -/
def isIndexCommand : Instr → Bool
  | .setPixelIndex .. | .getIndexXy .. | .getIndexPos .. => true
  | .nop | .cfgSet .. | .palSize .. | .palWrite .. | .palRead .. | .init .. | .fill .. | .setPixel .. | .get565Xy ..
  | .get565Pos .. | .get666Xy .. | .get666Pos .. | .bufSize | .bufLength | .pixelBits | .dirtyLo | .dirtyHi
  | .resetDirty | .statusRead | .cvt565 .. | .cvt666 .. | .cvt332 .. | .cvt233 .. | .cvt332To565 ..
  | .cvt565ToRgb .. | .cvt666ToRgb .. => false

/-- The command names a pixel outside the frame, or a position at or above BUF_LEN (60_exceptions.md R210, ERR_BOUNDS). -/
def outOfBounds (s : State) : Instr → Bool
  | .setPixel x y _ | .setPixelIndex x y _ | .get565Xy x y | .get666Xy x y | .getIndexXy x y =>
    decide (s.width.toNat ≤ x.toNat) || decide (s.height.toNat ≤ y.toNat)
  | .get565Pos pos | .get666Pos pos | .getIndexPos pos => decide (s.bufLen.toNat ≤ pos.toNat)
  | .nop | .cfgSet .. | .palSize .. | .palWrite .. | .palRead .. | .init .. | .fill .. | .bufSize | .bufLength
  | .pixelBits | .dirtyLo | .dirtyHi | .resetDirty | .statusRead | .cvt565 .. | .cvt666 .. | .cvt332 .. | .cvt233 ..
  | .cvt332To565 .. | .cvt565ToRgb .. | .cvt666ToRgb .. => false

/-- INIT with INDEXED and no palette (60_exceptions.md R210, ERR_CONFIG). -/
def lacksPalette (s : State) : Instr → Bool
  | .init .. => s.cfgVariant == .indexed && s.palSize == 0
  | .nop | .cfgSet .. | .palSize .. | .palWrite .. | .palRead .. | .fill .. | .setPixel .. | .setPixelIndex ..
  | .get565Xy .. | .get565Pos .. | .get666Xy .. | .get666Pos .. | .getIndexXy .. | .getIndexPos .. | .bufSize
  | .bufLength | .pixelBits | .dirtyLo | .dirtyHi | .resetDirty | .statusRead | .cvt565 .. | .cvt666 .. | .cvt332 ..
  | .cvt233 .. | .cvt332To565 .. | .cvt565ToRgb .. | .cvt666ToRgb .. => false

/-- INIT of more bytes than CAP (60_exceptions.md R210, R213, ERR_ALLOC). -/
def exceedsCap (s : State) : Instr → Bool
  | .init w h => decide (s.cap.val < (w.toNat * h.toNat * bppOf s.cfgVariant s.palSize + 7) / 8)
  | .nop | .cfgSet .. | .palSize .. | .palWrite .. | .palRead .. | .fill .. | .setPixel .. | .setPixelIndex ..
  | .get565Xy .. | .get565Pos .. | .get666Xy .. | .get666Pos .. | .getIndexXy .. | .getIndexPos .. | .bufSize
  | .bufLength | .pixelBits | .dirtyLo | .dirtyHi | .resetDirty | .statusRead | .cvt565 .. | .cvt666 .. | .cvt332 ..
  | .cvt233 .. | .cvt332To565 .. | .cvt565ToRgb .. | .cvt666ToRgb .. => false

/-- Whether the cause of error status `e` is present when the legal command `i` is given in state s, each cause judged by
itself (60_exceptions.md R210, R214). -/
def applies (i : Instr) (s : State) : Status → Bool
  | .ok => false
  | .errIllegal => false
  | .errUnusable => permission i != .always && s.engState == .unusable
  | .errState =>
    (permission i == .uninitOnly && s.engState == .ready) || (permission i == .readyOnly && s.engState == .uninit)
  | .errVariant => isIndexCommand i && s.cfgVariant != .indexed
  | .errArg => !i.wellFormed
  | .errConfig => lacksPalette s i
  | .errBounds => outOfBounds s i
  | .errAlloc => exceedsCap s i

/-- The order in which errors are reported (60_exceptions.md R213). -/
def precedence : List Status :=
  [.errIllegal, .errUnusable, .errState, .errVariant, .errArg, .errConfig, .errBounds, .errAlloc]

/-- The error that a legal command reports: the first that applies (60_exceptions.md R213). -/
def firstError (i : Instr) (s : State) : Option Status := precedence.find? (applies i s)

end Sys2Proof.Safety
end

