-- ==== Sys2Proof/Certificates/Slice0/Obligations.lean ====
section
/-! DEFINITION. The statements about FPSE-1 for the provers. Each names the rule of spec/ it formalises; where a clause is
the model's choice, it says so and names the log entry. -/

open Sys2Proof Sys2Proof.Machine Sys2Proof.Safety

/-! ## Encoding -/

/-- 30_encoding.md R82, R83, R84, R91: decoding the words of a command gives the command back, for every command and every
operand value. -/
def Obligations.DecodeOfEncode : Prop := ∀ i : Instr, decode (encode i) = .ok i

/-- 30_encoding.md R86: the decoder accepts exactly the words that a row of the opcode table matches. -/
def Obligations.DecodeAcceptsExactlyTheTable : Prop :=
  ∀ c : Command, (∃ i, decode c = .ok i) ↔ legalW0 (cmdW0 c) = true

/-- 30_encoding.md R85: no word 0 fits two rows of the opcode table. -/
def Obligations.OpcodeRowsAreDisjoint : Prop :=
  opcodeRows.Pairwise fun a b => ∀ w0 : Word, w0 &&& a.2 = a.1 → w0 &&& b.2 ≠ b.1

/-- 30_encoding.md R82, R91: no bit of word 0 is lost by decoding, and of the operand words no bit that the command uses. -/
def Obligations.EncodeRecoversUsedWords : Prop :=
  ∀ (c : Command) (i : Instr), decode c = .ok i →
    cmdW0 (encode i) = cmdW0 c ∧
    cmdW1 (encode i) = (if usesW1 (opcodeField (cmdW0 c)).toNat then cmdW1 c else 0) ∧
    cmdW2 (encode i) = (if usesW2 (opcodeField (cmdW0 c)).toNat then cmdW2 c else 0)

/-- 30_encoding.md R87: operand words and operand bits that a command does not use have no effect. -/
def Obligations.UnusedOperandBitsAreIgnored : Prop :=
  (∀ w0 w1 w2 w1' : Word, usesW1 (opcodeField w0).toNat = false → decodeWords w0 w1 w2 = decodeWords w0 w1' w2) ∧
  (∀ w0 w1 w2 w2' : Word, usesW2 (opcodeField w0).toNat = false → decodeWords w0 w1 w2 = decodeWords w0 w1 w2') ∧
  (∀ (s : State) (v v' : Word), v.toNat % 2 ^ 8 = v'.toNat % 2 ^ 8 →
    exec (.cvt332To565 v) s = exec (.cvt332To565 v') s) ∧
  (∀ (s : State) (v v' : Word), v.toNat % 2 ^ 16 = v'.toNat % 2 ^ 16 →
    exec (.cvt565ToRgb v) s = exec (.cvt565ToRgb v') s) ∧
  (∀ (s : State) (v v' : Word), s.cfgRba = true → v.toNat % 2 ^ 18 = v'.toNat % 2 ^ 18 →
    exec (.cvt666ToRgb v) s = exec (.cvt666ToRgb v') s) ∧
  (∀ (s : State) (v v' : Word), s.cfgRba = false → v.toNat / 2 ^ 14 = v'.toNat / 2 ^ 14 →
    exec (.cvt666ToRgb v) s = exec (.cvt666ToRgb v') s)

/-- Words written out from the formats of 30_encoding.md R82, one or two for each family. -/
def Obligations.KnownWordsDecode : Prop :=
  decodeWords 0x01000101 0 0 = .ok (.cfgSet 1 true) ∧
  decodeWords 0x02000100 0 0 = .ok (.palSize 256) ∧
  decodeWords 0x030000FF 0 0x12345678 = .ok (.palWrite 255 ⟨0x12, 0x34, 0x56, 0x78⟩) ∧
  decodeWords 0x05000000 0x014000F0 0 = .ok (.init 320 240) ∧
  decodeWords 0x11000000 0x00030005 0xFF000000 = .ok (.setPixel 3 5 ⟨255, 0, 0, 0⟩) ∧
  decodeWords 0x12000006 0x00020000 0 = .ok (.setPixelIndex 2 0 6) ∧
  decodeWords 0x21000000 0x00012345 0 = .ok (.get565Pos 0x12345) ∧
  decodeWords 0x24000000 0x00010002 0 = .ok (.getIndexXy 1 2) ∧
  decodeWords 0x36000000 0 0 = .ok .statusRead ∧
  decodeWords 0x44000000 0xFFFFFF49 0 = .ok (.cvt332To565 0xFFFFFF49)

/-! ## The step -/

/-- 20_memory.md R70 with 30_encoding.md R80: a step runs the decoded command; around exec it only takes the command from
the host's moves and clears the response of the step before (log 1, log 6). -/
def Obligations.StepRunsTheDecodedCommand : Prop :=
  ∀ (s : State) (data : Command) (rest : List HostMove) (i : Instr),
    s.inbox = .command data :: rest → decode data = .ok i →
      step s = exec i { s with inbox := rest, rsp := none }

/-- 30_encoding.md R86: a command whose word 0 fits no row of the table is answered ERR_ILLEGAL and changes no state except
ERR_STICKY. -/
def Obligations.IllegalCommandIsAnswered : Prop :=
  ∀ (s : State) (data : Command) (rest : List HostMove),
    s.inbox = .command data :: rest → legalW0 (cmdW0 data) = false →
      step s = .next (refusedWith { s with inbox := rest } .errIllegal 1)

/-- The model's reading (log 7) of 60_exceptions.md R225: with no command and no reset, only the response port changes. -/
def Obligations.IdleStepChangesNothing : Prop :=
  ∀ s : State, s.inbox = [] → step s = .next { s with rsp := none }

/-- 70_reset_and_hazards.md R230: reset sets every register, whatever the palette and storage draws are, gives no
response, and is the only transition out of READY and UNUSABLE. -/
def Obligations.ResetSetsEveryRegister : Prop :=
  (∀ (s : State) (pal : Palette) (bytes : List Byte) (rest : List HostMove), s.inbox = .reset pal bytes :: rest →
    ∃ t, step s = .next t ∧ t.engState = .uninit ∧ t.cfgVariant = .v565 ∧ t.cfgRba = false ∧ t.palSize = 0 ∧
      t.width = 0 ∧ t.height = 0 ∧ t.bpp = 0 ∧ t.bufSize = 0 ∧ t.bufLen = 0 ∧
      t.dirty = ⟨0xFFFF, 0xFFFF, 0, 0⟩ ∧ t.errSticky = 0 ∧ t.rsp = none) ∧
  (∀ s t : State, s.engState ≠ .uninit → step s = .next t → t.engState ≠ s.engState → resetNext s)

/-- The model's form (log 5) of the draws of 10_state.md R35: after a reset move every palette slot and every storage byte
holds the value the move carries (a byte that it does not list reads 0, log 4), and CAP stays. -/
def Obligations.ResetDrawsPaletteAndStorage : Prop :=
  ∀ (s : State) (pal : Palette) (bytes : List Byte) (rest : List HostMove), s.inbox = .reset pal bytes :: rest →
    ∃ t, step s = .next t ∧ t.pal = pal ∧ t.cap = s.cap ∧ t.inbox = rest ∧
      ∀ a, a < s.cap.val → memRead t.storage a = (bytes[a]?).getD 0

/-! ## The invariant -/

/-- The reset state, and every power-on state whose storage draw is canonical and lies below CAP, meets the invariant
(10_state.md R35). -/
def Obligations.ResetMeetsInv : Prop :=
  Inv State.reset ∧
  ∀ (cap : Fin 4294967296) (pal : Palette) (m : Memory),
    1 ≤ cap.val → Memory.wf m = true → memBelow m cap.val = true → Inv (State.powerOn cap pal m)

/-- Every step keeps the invariant: the cached geometry and sizes (10_state.md R26 to R28), the dirty rectangle (R30), the
reserved sticky bits (R31), the palette size (R24), storage below CAP in its canonical form. -/
def Obligations.StepKeepsInv : Prop :=
  ∀ s t : State, Inv s → step s = .next t → Inv t

/-- 60_exceptions.md R217 and section 60's opening, "Every command completes": from every state that meets the invariant a
step answers a next state; no fault and no refusal can be reached. -/
def Obligations.EveryStepCompletes : Prop :=
  ∀ s : State, Inv s → ∃ t, step s = .next t

/-- The model's one fault (log 8): a command stops only where a cell would reach an address at or above CAP
(20_memory.md R50), and no command is refused. -/
def Obligations.CommandStopsOnlyOutsideStorage : Prop :=
  ∀ (i : Instr) (s : State),
    (∀ r, exec i s ≠ .refused r) ∧
    (∀ f, exec i s = .fault f → ∃ p, f = .outsideStorage p ∧ s.cap.val < cellEnd s.cfgVariant s.bpp.toNat p)

/-! ## Errors -/

/-- 60_exceptions.md R214: which state permits which command, and the status returned where it is not permitted. -/
def Obligations.PermissionTable : Prop :=
  ∀ (i : Instr) (s : State),
    (permission i ≠ .always → s.engState = .unusable → exec i s = .next (refusedWith s .errUnusable 3)) ∧
    (permission i = .uninitOnly → s.engState = .ready → exec i s = .next (refusedWith s .errState 2)) ∧
    (permission i = .readyOnly → s.engState = .uninit → exec i s = .next (refusedWith s .errState 2)) ∧
    (permission i = .always ∨ (permission i = .uninitOnly ∧ s.engState = .uninit) ∨
        (permission i = .readyOnly ∧ s.engState = .ready) →
      ∀ t r, exec i s = .next t → t.rsp = some r → r.status ≠ .errState ∧ r.status ≠ .errUnusable)

/-- 60_exceptions.md R213: of the errors that apply, the first in the order is reported; if none applies the command
completes with OK and no sticky bit is set. -/
def Obligations.FirstApplicableErrorIsReported : Prop :=
  ∀ (s : State) (data : Command) (rest : List HostMove), Inv s → s.inbox = .command data :: rest →
    (legalW0 (cmdW0 data) = false → step s = .next (refusedWith { s with inbox := rest } .errIllegal 1)) ∧
    ∀ i, decode data = .ok i →
      match firstError i s with
      | some .errAlloc =>
        step s = .next { refusedWith { s with inbox := rest } .errAlloc 4 with engState := .unusable }
      | some e => step s = .next (refusedWith { s with inbox := rest } e (statusCode e).toNat)
      | none => ∃ t v, step s = .next t ∧ t.rsp = some ⟨.ok, v⟩ ∧ t.errSticky = s.errSticky

/-- 60_exceptions.md R212: a command that completes, legal or not, either returns OK with ERR_STICKY as before, or has no
effect beyond the sticky bit and the response, and for ERR_ALLOC the state change. -/
def Obligations.CommandHasOneOfTwoOutcomes : Prop :=
  ∀ (s t : State) (data : Command) (rest : List HostMove), s.inbox = .command data :: rest → step s = .next t →
    (∃ v, t.rsp = some ⟨.ok, v⟩ ∧ t.errSticky = s.errSticky ∧ t.inbox = rest) ∨
    (∃ e, e ≠ .ok ∧ e ≠ .errAlloc ∧ t = refusedWith { s with inbox := rest } e (statusCode e).toNat) ∨
    t = { refusedWith { s with inbox := rest } .errAlloc 4 with engState := .unusable }

/-- 60_exceptions.md R215: a returned error sets its bit, no command clears a bit, reset clears them all. -/
def Obligations.StickyBitsStayUntilReset : Prop :=
  (∀ (s t : State) (data : Command) (rest : List HostMove), s.inbox = .command data :: rest → step s = .next t →
    (∀ n, s.errSticky.getLsbD n = true → t.errSticky.getLsbD n = true) ∧
    ∃ r, t.rsp = some r ∧ (r.status ≠ .ok → t.errSticky.getLsbD (statusCode r.status).toNat = true) ∧
      (r.status = .ok → t.errSticky = s.errSticky)) ∧
  (∀ s t : State, resetNext s → step s = .next t → t.errSticky = 0)

/-- 60_exceptions.md R210: the STATUS codes. -/
def Obligations.StatusCodes : Prop :=
  statusCode .ok = 0x0 ∧ statusCode .errIllegal = 0x1 ∧ statusCode .errState = 0x2 ∧ statusCode .errUnusable = 0x3 ∧
  statusCode .errAlloc = 0x4 ∧ statusCode .errConfig = 0x5 ∧ statusCode .errArg = 0x6 ∧ statusCode .errBounds = 0x7 ∧
  statusCode .errVariant = 0x8

/-! ## What may change -/

/-- 10_state.md R20: UNINIT is left only through INIT, READY and UNUSABLE only by reset, which leaves UNINIT; the encoding
of ENG_STATE, in which no state has the value 3. -/
def Obligations.EngineStateMoves : Prop :=
  (∀ s t : State, step s = .next t → ¬ resetNext s →
    (s.engState = .uninit → t.engState ≠ .uninit →
      ∃ data rest w h, s.inbox = .command data :: rest ∧ decode data = .ok (.init w h)) ∧
    (s.engState = .ready → t.engState = .ready) ∧ (s.engState = .unusable → t.engState = .unusable)) ∧
  (∀ s t : State, step s = .next t → resetNext s → t.engState = .uninit) ∧
  engStateBits .uninit = 0 ∧ engStateBits .ready = 1 ∧ engStateBits .unusable = 2 ∧ ∀ e, engStateBits e ≠ 3

/-- 10_state.md R22 to R28 and 60_exceptions.md R219: outside UNINIT no command changes the configuration, the palette,
the geometry or the cached sizes. -/
def Obligations.ConfigurationIsFrozenOutsideUninit : Prop :=
  ∀ (i : Instr) (s t : State), s.engState ≠ .uninit → exec i s = .next t →
    t.engState = s.engState ∧ t.cfgVariant = s.cfgVariant ∧ t.cfgRba = s.cfgRba ∧ t.palSize = s.palSize ∧
    t.pal = s.pal ∧ t.width = s.width ∧ t.height = s.height ∧ t.bpp = s.bpp ∧ t.bufSize = s.bufSize ∧
    t.bufLen = s.bufLen ∧ t.cap = s.cap ∧ t.inbox = s.inbox

/-- 20_memory.md R64, R65 and 10_state.md R29: storage changes only by FILL, SET_PIXEL and SET_PIXEL_INDEX in READY; the
dirty rectangle only by these, INIT and RESET_DIRTY. -/
def Obligations.OnlyPixelWritesChangeStorage : Prop :=
  ∀ (i : Instr) (s t : State), exec i s = .next t →
    (s.engState ≠ .ready → t.storage = s.storage) ∧
    (groupRange i ≠ (0x10, 0x12) → t.storage = s.storage) ∧
    (groupRange i ≠ (0x10, 0x12) → i ≠ .resetDirty → (∀ w h, i ≠ .init w h) → t.dirty = s.dirty)

/-- 20_memory.md R63, R64: no command writes a padding bit or a byte past the buffer. -/
def Obligations.PaddingIsNeverWritten : Prop :=
  ∀ (i : Instr) (s t : State), Inv s → exec i s = .next t →
    ∀ g, s.bufLen.toNat * s.bpp.toNat ≤ g → storageBit t.storage g = storageBit s.storage g

/-- 43_pixel_read.md R179: a read command changes nothing; on an error, only ERR_STICKY. -/
def Obligations.PixelReadsChangeNothing : Prop :=
  ∀ (i : Instr) (s t : State), groupRange i = (0x20, 0x25) → exec i s = .next t →
    (∃ v, t = answered s v) ∨ (∃ e, e ≠ .ok ∧ t = refusedWith s e (statusCode e).toNat)

/-- 40_codec.md R110: a codec command reads no state except CFG_RBA and writes none. -/
def Obligations.CodecReadsOnlyRba : Prop :=
  ∀ (i : Instr) (s s' : State), groupRange i = (0x40, 0x46) → s.cfgRba = s'.cfgRba →
    ∃ v, exec i s = .next (answered s v) ∧ exec i s' = .next (answered s' v)

/-- 00_scope.md R7: only INIT reads CAP. -/
def Obligations.OnlyInitReadsCap : Prop :=
  ∀ (i : Instr) (s t : State) (c : Fin 4294967296), (∀ w h, i ≠ .init w h) → Inv s → Inv { s with cap := c } →
    exec i s = .next t → exec i { s with cap := c } = .next { t with cap := c }

/-! ## Lifecycle commands -/

/-- 41_lifecycle.md R130: NOP completes in every state and changes nothing. -/
def Obligations.NopChangesNothing : Prop := ∀ s : State, exec .nop s = .next (answered s 0)

/-- 41_lifecycle.md R131: CFG_SET, every path of its pseudocode. -/
def Obligations.CfgSetOutcomes : Prop :=
  ∀ (s : State) (rba : Bool),
    (s.engState = .uninit →
      exec (.cfgSet 0 rba) s = .next { s with cfgVariant := .v565, cfgRba := rba, rsp := some ⟨.ok, 0⟩ } ∧
      exec (.cfgSet 1 rba) s = .next { s with cfgVariant := .v666, cfgRba := rba, rsp := some ⟨.ok, 0⟩ } ∧
      exec (.cfgSet 2 rba) s = .next { s with cfgVariant := .indexed, cfgRba := rba, rsp := some ⟨.ok, 0⟩ } ∧
      exec (.cfgSet 3 rba) s = .next (refusedWith s .errArg 6)) ∧
    ∀ var, (s.engState = .ready → exec (.cfgSet var rba) s = .next (refusedWith s .errState 2)) ∧
      (s.engState = .unusable → exec (.cfgSet var rba) s = .next (refusedWith s .errUnusable 3))

/-- 41_lifecycle.md R132: PAL_SIZE, every path of its pseudocode. -/
def Obligations.PalSizeOutcomes : Prop :=
  ∀ (s : State) (n : BitVec 9),
    (s.engState = .uninit → 1 ≤ n.toNat → n.toNat ≤ 256 →
      exec (.palSize n) s = .next { s with palSize := n, rsp := some ⟨.ok, 0⟩ }) ∧
    (s.engState = .uninit → n.toNat = 0 ∨ 256 < n.toNat → exec (.palSize n) s = .next (refusedWith s .errArg 6)) ∧
    (s.engState = .ready → exec (.palSize n) s = .next (refusedWith s .errState 2)) ∧
    (s.engState = .unusable → exec (.palSize n) s = .next (refusedWith s .errUnusable 3))

/-- 41_lifecycle.md R133, R134: PAL_WRITE stores all 32 bits in its slot and nothing else, and PAL_READ then returns them;
every other slot reads as before. Outside UNINIT it is refused. -/
def Obligations.PalWriteOutcomes : Prop :=
  ∀ (s : State) (k : Byte) (c : Color),
    (s.engState = .uninit →
      ∃ pal, exec (.palWrite k c) s = .next { s with pal := pal, rsp := some ⟨.ok, 0⟩ } ∧
        exec (.palRead k) { s with pal := pal } = .next (answered { s with pal := pal } (wordOfColor c)) ∧
        ∀ j : Byte, j ≠ k → pal[j.toNat]'j.isLt = s.pal[j.toNat]'j.isLt) ∧
    (s.engState = .ready → exec (.palWrite k c) s = .next (refusedWith s .errState 2)) ∧
    (s.engState = .unusable → exec (.palWrite k c) s = .next (refusedWith s .errUnusable 3))

/-- 41_lifecycle.md R134: PAL_READ returns the slot's color word (00_scope.md R11) in every state. -/
def Obligations.PalReadReturnsTheSlot : Prop :=
  ∀ (s : State) (k : Byte), exec (.palRead k) s = .next (answered s (BitVec.ofNat 32
    ((s.pal[k.toNat]'k.isLt).r.toNat * 2 ^ 24 + (s.pal[k.toNat]'k.isLt).g.toNat * 2 ^ 16 +
      (s.pal[k.toNat]'k.isLt).b.toNat * 2 ^ 8 + (s.pal[k.toNat]'k.isLt).w.toNat)))

/-- 41_lifecycle.md R135, R137, R138: INIT, every path of its pseudocode, for the pixel bit width of R136. -/
def Obligations.InitOutcomes : Prop :=
  ∀ (s : State) (w h : Half),
    (s.engState = .ready → exec (.init w h) s = .next (refusedWith s .errState 2)) ∧
    (s.engState = .unusable → exec (.init w h) s = .next (refusedWith s .errUnusable 3)) ∧
    (s.engState = .uninit → w = 0 ∨ h = 0 → exec (.init w h) s = .next (refusedWith s .errArg 6)) ∧
    (s.engState = .uninit → w ≠ 0 → h ≠ 0 → s.cfgVariant = .indexed → s.palSize = 0 →
      exec (.init w h) s = .next (refusedWith s .errConfig 5)) ∧
    (s.engState = .uninit → w ≠ 0 → h ≠ 0 → (s.cfgVariant = .indexed → s.palSize ≠ 0) →
      ∀ b, leastWidth s.cfgVariant s.palSize.toNat b →
        (s.cap.val < (w.toNat * h.toNat * b + 7) / 8 →
          exec (.init w h) s = .next { refusedWith s .errAlloc 4 with engState := .unusable }) ∧
        ((w.toNat * h.toNat * b + 7) / 8 ≤ s.cap.val →
          exec (.init w h) s = .next { s with
            width := w, height := h, bpp := BitVec.ofNat 6 b,
            bufSize := BitVec.ofNat 32 ((w.toNat * h.toNat * b + 7) / 8),
            bufLen := BitVec.ofNat 32 (w.toNat * h.toNat),
            dirty := ⟨0xFFFF, 0xFFFF, 0x0000, 0x0000⟩, engState := .ready, rsp := some ⟨.ok, 0⟩ }))

/-- 41_lifecycle.md R136: `BppOf` is 16, 32, or the smallest w ≥ 1 with 2^w ≥ psize. -/
def Obligations.BppOfIsTheLeastWidth : Prop :=
  ∀ (variant : Variant) (psize : BitVec 9), leastWidth variant psize.toNat (bppOf variant psize)

/-! ## Storage -/

/-- 20_memory.md R58: for widths 1 to 8 the pack and unpack algorithms are the general pixel primitives. -/
def Obligations.PackAndUnpackAreThePixelPrimitives : Prop :=
  ∀ (m : Memory) (w p : Nat) (index : Byte), Memory.wf m = true → 1 ≤ w → w ≤ 8 →
    pack m w p index = pixSet m w p (index.toNat % 2 ^ w) ∧ unpack m w p = pixGet m w p

/-- 20_memory.md R53, R61: at widths 16 and 32 a cell is stored and loaded little-endian in whole bytes, and every other
byte is as before. -/
def Obligations.FixedWidthCellsAreLittleEndian : Prop :=
  ∀ (m : Memory) (p v a : Nat), Memory.wf m = true →
    memRead (pixSet m 16 p v) a =
      (if a = 2 * p then BitVec.ofNat 8 v else if a = 2 * p + 1 then BitVec.ofNat 8 (v / 2 ^ 8) else memRead m a) ∧
    memRead (pixSet m 32 p v) a =
      (if 4 * p ≤ a ∧ a < 4 * p + 4 then BitVec.ofNat 8 (v / 2 ^ (8 * (a - 4 * p))) else memRead m a) ∧
    pixGet m 16 p = (memRead m (2 * p)).toNat + (memRead m (2 * p + 1)).toNat * 2 ^ 8 ∧
    pixGet m 32 p = (memRead m (4 * p)).toNat + (memRead m (4 * p + 1)).toNat * 2 ^ 8 +
      (memRead m (4 * p + 2)).toNat * 2 ^ 16 + (memRead m (4 * p + 3)).toNat * 2 ^ 24

/-! ## Pixel writes -/

/-- 42_pixel_write.md R154: SET_PIXEL writes the cell of slot x + y*WIDTH and nothing else in storage, widens the dirty
rectangle, and changes no other register. -/
def Obligations.SetPixelWritesItsCell : Prop :=
  ∀ (s : State) (x y : Half) (c : Color), Inv s → s.engState = .ready → x < s.width → y < s.height →
    ∃ m, exec (.setPixel x y c) s = .next { s with
        storage := m,
        dirty := ⟨BitVec.ofNat 16 (min s.dirty.xl.toNat x.toNat), BitVec.ofNat 16 (min s.dirty.yl.toNat y.toNat),
          BitVec.ofNat 16 (max s.dirty.xh.toNat x.toNat), BitVec.ofNat 16 (max s.dirty.yh.toNat y.toNat)⟩,
        rsp := some ⟨.ok, 0⟩ } ∧
      (∀ k, k < s.bpp.toNat →
        storageBit m (slotOf s x y * s.bpp.toNat + k) = (storeVal s c).testBit k) ∧
      (∀ g, outsideCell s (slotOf s x y) g → storageBit m g = storageBit s.storage g) ∧
      (∀ a, outsideCellBytes s (slotOf s x y) a → memRead m a = memRead s.storage a)

/-- 42_pixel_write.md R155: SET_PIXEL_INDEX stores the low BPP bits of INDEX in the cell of slot x + y*WIDTH and nothing
else in storage, widens the dirty rectangle, and changes no other register. -/
def Obligations.SetPixelIndexWritesItsCell : Prop :=
  ∀ (s : State) (x y : Half) (index : Byte), Inv s → s.engState = .ready → s.cfgVariant = .indexed →
    x < s.width → y < s.height →
    ∃ m, exec (.setPixelIndex x y index) s = .next { s with
        storage := m,
        dirty := ⟨BitVec.ofNat 16 (min s.dirty.xl.toNat x.toNat), BitVec.ofNat 16 (min s.dirty.yl.toNat y.toNat),
          BitVec.ofNat 16 (max s.dirty.xh.toNat x.toNat), BitVec.ofNat 16 (max s.dirty.yh.toNat y.toNat)⟩,
        rsp := some ⟨.ok, 0⟩ } ∧
      (∀ k, k < s.bpp.toNat → storageBit m (slotOf s x y * s.bpp.toNat + k) = index.getLsbD k) ∧
      (∀ g, outsideCell s (slotOf s x y) g → storageBit m g = storageBit s.storage g) ∧
      (∀ a, outsideCellBytes s (slotOf s x y) a → memRead m a = memRead s.storage a)

/-- 42_pixel_write.md R153: FILL writes every cell, no padding bit and no byte past the buffer, sets the full-frame
rectangle, and changes no other register. -/
def Obligations.FillWritesEveryCell : Prop :=
  ∀ (s : State) (c : Color), Inv s → s.engState = .ready →
    ∃ m, exec (.fill c) s = .next { s with
        storage := m,
        dirty := ⟨0, 0, BitVec.ofNat 16 (s.width.toNat - 1), BitVec.ofNat 16 (s.height.toNat - 1)⟩,
        rsp := some ⟨.ok, 0⟩ } ∧
      (∀ p k, p < s.bufLen.toNat → k < s.bpp.toNat →
        storageBit m (p * s.bpp.toNat + k) = (storeVal s c).testBit k) ∧
      (∀ g, s.bufLen.toNat * s.bpp.toNat ≤ g → storageBit m g = storageBit s.storage g) ∧
      (∀ a, s.bufSize.toNat ≤ a → memRead m a = memRead s.storage a)

/-- 42_pixel_write.md R150: the palette search gives the lowest index below PAL_SIZE whose (r, g, b) is that of the color,
white not compared, and 0 if there is none. -/
def Obligations.PaletteSearchFindsTheLowestMatch : Prop :=
  ∀ (s : State) (c : Color),
    (∀ k : Byte, k.toNat < s.palSize.toNat →
      (palSlot s k).r = c.r → (palSlot s k).g = c.g → (palSlot s k).b = c.b →
      (∀ j : Byte, j < k → ¬ ((palSlot s j).r = c.r ∧ (palSlot s j).g = c.g ∧ (palSlot s j).b = c.b)) →
      palFind s c = k.toNat) ∧
    ((∀ k : Byte, k.toNat < s.palSize.toNat →
        ¬ ((palSlot s k).r = c.r ∧ (palSlot s k).g = c.g ∧ (palSlot s k).b = c.b)) →
      palFind s c = 0)

/-- 42_pixel_write.md R152: every successful pixel write widens the rectangle by min and max. -/
def Obligations.PixelWriteWidensByMinAndMax : Prop :=
  ∀ (s t : State) (x y : Half) (i : Instr), Inv s → s.engState = .ready → x < s.width → y < s.height →
    ((∃ c, i = .setPixel x y c) ∨ (∃ k, i = .setPixelIndex x y k ∧ s.cfgVariant = .indexed)) → exec i s = .next t →
      t.dirty.xl.toNat = min s.dirty.xl.toNat x.toNat ∧ t.dirty.yl.toNat = min s.dirty.yl.toNat y.toNat ∧
      t.dirty.xh.toNat = max s.dirty.xh.toNat x.toNat ∧ t.dirty.yh.toNat = max s.dirty.yh.toNat y.toNat

/-- 10_state.md R29, R30: after SET_PIXEL or SET_PIXEL_INDEX in frame the rectangle is the least one that covers the pixel and all it covered
before; from the empty encoding it is (x, y, x, y), which 42_pixel_write.md R152 infers. -/
def Obligations.DirtyRectangleIsTheLeastCover : Prop :=
  ∀ (s t : State) (x y : Half) (i : Instr), Inv s → s.engState = .ready → x < s.width → y < s.height →
    ((∃ c, i = .setPixel x y c) ∨ (∃ k, i = .setPixelIndex x y k ∧ s.cfgVariant = .indexed)) → exec i s = .next t →
      covers t.dirty x y ∧ (∀ u v, covers s.dirty u v → covers t.dirty u v) ∧
      (∀ d, covers d x y → (∀ u v, covers s.dirty u v → covers d u v) → ∀ u v, covers t.dirty u v → covers d u v) ∧
      (s.dirty = ⟨0xFFFF, 0xFFFF, 0x0000, 0x0000⟩ → t.dirty = ⟨x, y, x, y⟩)

/-! ## Pixel reads -/

/-- 43_pixel_read.md R171, R173, R174: GET565 returns the 565 reading of the slot's cell, by position and by coordinate. -/
def Obligations.Get565ReadsItsCell : Prop :=
  ∀ s : State, Inv s → s.engState = .ready →
    (∀ pos : Word, pos < s.bufLen →
      ∃ v, cellHolds s pos.toNat v ∧ exec (.get565Pos pos) s = .next (answered s (read565Of s v))) ∧
    (∀ x y : Half, x < s.width → y < s.height →
      ∃ v, cellHolds s (x.toNat + y.toNat * s.width.toNat) v ∧
        exec (.get565Xy x y) s = .next (answered s (read565Of s v)))

/-- 43_pixel_read.md R172, R175, R176: GET666 returns the 666 reading of the slot's cell, by position and by coordinate. -/
def Obligations.Get666ReadsItsCell : Prop :=
  ∀ s : State, Inv s → s.engState = .ready →
    (∀ pos : Word, pos < s.bufLen →
      ∃ v, cellHolds s pos.toNat v ∧ exec (.get666Pos pos) s = .next (answered s (read666Of s v))) ∧
    (∀ x y : Half, x < s.width → y < s.height →
      ∃ v, cellHolds s (x.toNat + y.toNat * s.width.toNat) v ∧
        exec (.get666Xy x y) s = .next (answered s (read666Of s v)))

/-- 43_pixel_read.md R177, R178: GET_INDEX returns the raw index of the slot's cell, not clamped. -/
def Obligations.GetIndexReadsItsCell : Prop :=
  ∀ s : State, Inv s → s.engState = .ready → s.cfgVariant = .indexed →
    (∀ pos : Word, pos < s.bufLen →
      ∃ v, cellHolds s pos.toNat v ∧ exec (.getIndexPos pos) s = .next (answered s (BitVec.ofNat 32 v))) ∧
    (∀ x y : Half, x < s.width → y < s.height →
      ∃ v, cellHolds s (x.toNat + y.toNat * s.width.toNat) v ∧
        exec (.getIndexXy x y) s = .next (answered s (BitVec.ofNat 32 v)))

/-- 20_memory.md R58, R60 (95_test_vectors.md X1, X2): an index written is read back mod 2^BPP, and every other slot reads
as before. -/
def Obligations.IndexWriteReadsBack : Prop :=
  ∀ (s : State) (x y : Half) (index : Byte), Inv s → s.engState = .ready → s.cfgVariant = .indexed →
    x < s.width → y < s.height →
    ∃ t, exec (.setPixelIndex x y index) s = .next t ∧
      exec (.getIndexXy x y) t = .next (answered t (BitVec.ofNat 32 (index.toNat % 2 ^ s.bpp.toNat))) ∧
      ∀ pos : Word, pos < s.bufLen → pos.toNat ≠ x.toNat + y.toNat * s.width.toNat →
        ∃ v, exec (.getIndexPos pos) s = .next (answered s v) ∧ exec (.getIndexPos pos) t = .next (answered t v)

/-- 43_pixel_read.md R171, R172 with 42_pixel_write.md R151, R154: a pixel set on a fixed-width buffer is read back in native
form as the codec command encodes its color; on an INDEXED buffer GET_INDEX returns PalFind of the color. -/
def Obligations.SetPixelReadsBack : Prop :=
  ∀ (s : State) (x y : Half) (c : Color), Inv s → s.engState = .ready → x < s.width → y < s.height →
    ∃ t, exec (.setPixel x y c) s = .next t ∧
      (s.cfgVariant = .v565 →
        ∃ v, exec (.cvt565 c) s = .next (answered s v) ∧ exec (.get565Xy x y) t = .next (answered t v)) ∧
      (s.cfgVariant = .v666 →
        ∃ v, exec (.cvt666 c) s = .next (answered s v) ∧ exec (.get666Xy x y) t = .next (answered t v)) ∧
      (s.cfgVariant = .indexed →
        exec (.getIndexXy x y) t = .next (answered t (BitVec.ofNat 32 (palFind s c))))

/-- 43_pixel_read.md R179 (95_test_vectors.md X8): after FILL every slot returns the native encoding of the color; for
INDEXED the index PalFind(c), and in color form the palette color of that index. -/
def Obligations.FillReadsBackEverywhere : Prop :=
  ∀ (s : State) (c : Color), Inv s → s.engState = .ready →
    ∃ t, exec (.fill c) s = .next t ∧ ∀ pos : Word, pos < s.bufLen →
      (s.cfgVariant = .v565 →
        ∃ v, exec (.cvt565 c) s = .next (answered s v) ∧ exec (.get565Pos pos) t = .next (answered t v)) ∧
      (s.cfgVariant = .v666 →
        ∃ v, exec (.cvt666 c) s = .next (answered s v) ∧ exec (.get666Pos pos) t = .next (answered t v)) ∧
      (s.cfgVariant = .indexed →
        exec (.getIndexPos pos) t = .next (answered t (BitVec.ofNat 32 (palFind s c))) ∧
        ∃ v, exec (.cvt565 (palSlot s (BitVec.ofNat 8 (palFind s c)))) s = .next (answered s v) ∧
          exec (.get565Pos pos) t = .next (answered t v))

/-! ## Queries -/

/-- 44_query_dirty.md R190 to R194: the queries return the latched registers in every state and change nothing. -/
def Obligations.QueryResults : Prop :=
  ∀ s : State,
    exec .bufSize s = .next (answered s s.bufSize) ∧
    exec .bufLength s = .next (answered s s.bufLen) ∧
    exec .pixelBits s = .next (answered s (BitVec.ofNat 32 s.bpp.toNat)) ∧
    exec .dirtyLo s = .next (answered s (BitVec.ofNat 32 (s.dirty.xl.toNat * 2 ^ 16 + s.dirty.yl.toNat))) ∧
    exec .dirtyHi s = .next (answered s (BitVec.ofNat 32 (s.dirty.xh.toNat * 2 ^ 16 + s.dirty.yh.toNat)))

/-- 44_query_dirty.md R195: RESET_DIRTY, every path of its pseudocode. -/
def Obligations.ResetDirtyOutcomes : Prop :=
  ∀ s : State,
    (s.engState = .ready →
      exec .resetDirty s = .next { s with dirty := ⟨0xFFFF, 0xFFFF, 0x0000, 0x0000⟩, rsp := some ⟨.ok, 0⟩ }) ∧
    (s.engState = .uninit → exec .resetDirty s = .next (refusedWith s .errState 2)) ∧
    (s.engState = .unusable → exec .resetDirty s = .next (refusedWith s .errUnusable 3))

/-- 10_state.md R34, 44_query_dirty.md R196: STATUS_READ returns every field of the status view in its place, reserved
bits 0, and changes nothing. ENG_STATE reads as R20 encodes it, CFG_VARIANT as R22 does. -/
def Obligations.StatusReadShowsEveryField : Prop :=
  ∀ s : State, ∃ v : Word, exec .statusRead s = .next (answered s v) ∧
    v.toNat % 4 = (match s.engState with | .uninit => 0 | .ready => 1 | .unusable => 2) ∧
    v.toNat / 2 ^ 2 % 4 = (match s.cfgVariant with | .v565 => 0 | .v666 => 1 | .indexed => 2) ∧
    v.toNat / 2 ^ 4 % 2 = s.cfgRba.toNat ∧
    v.toNat / 2 ^ 5 % 2 = (if s.dirty.xh.toNat < s.dirty.xl.toNat then 1 else 0) ∧
    v.toNat / 2 ^ 6 % 4 = 0 ∧ v.toNat / 2 ^ 8 % 64 = s.bpp.toNat ∧ v.toNat / 2 ^ 14 % 4 = 0 ∧
    v.toNat / 2 ^ 16 = s.errSticky.toNat

/-- 44_query_dirty.md R190 to R192, R196: what the queries answer right after reset. -/
def Obligations.QueriesAfterReset : Prop :=
  ∀ (cap : Fin 4294967296) (pal : Palette) (m : Memory),
    exec .statusRead (State.powerOn cap pal m) = .next (answered (State.powerOn cap pal m) 0x00000020) ∧
    exec .bufSize (State.powerOn cap pal m) = .next (answered (State.powerOn cap pal m) 0) ∧
    exec .bufLength (State.powerOn cap pal m) = .next (answered (State.powerOn cap pal m) 0) ∧
    exec .pixelBits (State.powerOn cap pal m) = .next (answered (State.powerOn cap pal m) 0)

/-! ## The color codec -/

/-- 40_codec.md R100: SCALE is floor division, 0 at 0, D at S, and monotone; the largest intermediate is 65025. -/
def Obligations.ScaleIsFloorDivision : Prop :=
  (∀ v s d, scale v s d = d * v / s) ∧ (∀ s d, scale 0 s d = 0) ∧ (∀ s d, 1 ≤ s → scale s s d = d) ∧
  (∀ v v' s d, v ≤ v' → scale v s d ≤ scale v' s d) ∧ (∀ v d, v ≤ 255 → d ≤ 255 → d * v ≤ 65025)

/-- 40_codec.md R103, R111: CVT_565 completes in every state and returns red in [15:11], green in [10:5], blue in [4:0]. -/
def Obligations.Cvt565Result : Prop :=
  ∀ (s : State) (c : Color), exec (.cvt565 c) s = .next (answered s (BitVec.ofNat 32
    (31 * c.r.toNat / 255 * 2 ^ 11 + 63 * c.g.toNat / 255 * 2 ^ 5 + 31 * c.b.toNat / 255)))

/-- 40_codec.md R104, R112: CVT_666 completes in every state and returns the 18 channel bits at bit 0 (CFG_RBA = 1) or at
bit 14 (CFG_RBA = 0). -/
def Obligations.Cvt666Result : Prop :=
  ∀ (s : State) (c : Color), exec (.cvt666 c) s = .next (answered s (BitVec.ofNat 32
    ((63 * c.r.toNat / 255 * 2 ^ 12 + 63 * c.g.toNat / 255 * 2 ^ 6 + 63 * c.b.toNat / 255) *
      (if s.cfgRba then 1 else 2 ^ 14))))

/-- 40_codec.md R105, R106, R113, R114: CVT_332 and CVT_233 complete in every state and return the packed bytes. -/
def Obligations.Cvt332And233Results : Prop :=
  ∀ (s : State) (c : Color),
    exec (.cvt332 c) s = .next (answered s (BitVec.ofNat 32
      (7 * c.r.toNat / 255 * 2 ^ 5 + 7 * c.g.toNat / 255 * 2 ^ 2 + 3 * c.b.toNat / 255))) ∧
    exec (.cvt233 c) s = .next (answered s (BitVec.ofNat 32
      (3 * c.r.toNat / 255 * 2 ^ 6 + 7 * c.g.toNat / 255 * 2 ^ 3 + 7 * c.b.toNat / 255)))

/-- 40_codec.md R107, R115: CVT_332_TO_565 completes in every state and rescales each channel against its own maximum. -/
def Obligations.Cvt332To565Result : Prop :=
  ∀ (s : State) (v : Word), exec (.cvt332To565 v) s = .next (answered s (BitVec.ofNat 32
    (31 * (v.toNat % 256 / 32) / 7 * 2 ^ 11 + 63 * (v.toNat / 4 % 8) / 7 * 2 ^ 5 + 31 * (v.toNat % 4) / 3)))

/-- 40_codec.md R108, R116: CVT_565_TO_RGB completes in every state and returns the widened channels with w = 0. -/
def Obligations.Cvt565ToRgbResult : Prop :=
  ∀ (s : State) (v : Word), exec (.cvt565ToRgb v) s = .next (answered s (BitVec.ofNat 32
    (255 * (v.toNat % 2 ^ 16 / 2 ^ 11) / 31 * 2 ^ 24 + 255 * (v.toNat / 2 ^ 5 % 64) / 63 * 2 ^ 16 +
      255 * (v.toNat % 32) / 31 * 2 ^ 8)))

/-- 40_codec.md R109, R117: CVT_666_TO_RGB completes in every state and widens the channels of bits [17:0] (CFG_RBA = 1) or
[31:14] (CFG_RBA = 0), with w = 0. -/
def Obligations.Cvt666ToRgbResult : Prop :=
  ∀ (s : State) (v : Word),
    let p := if s.cfgRba then v.toNat % 2 ^ 18 else v.toNat / 2 ^ 14
    exec (.cvt666ToRgb v) s = .next (answered s (BitVec.ofNat 32
      (255 * (p / 2 ^ 12) / 63 * 2 ^ 24 + 255 * (p / 2 ^ 6 % 64) / 63 * 2 ^ 16 + 255 * (p % 64) / 63 * 2 ^ 8)))

/-! ## Notation -/

/-- 30_encoding.md R90: each pseudo-instruction means its expansion. -/
def Obligations.PseudoInstructionsExpand : Prop :=
  expandPseudo .clear = [.fill ⟨0, 0, 0, 0⟩] ∧ expandPseudo .dirty = [.dirtyLo, .dirtyHi] ∧
  expandPseudo .flushDone = [.resetDirty] ∧
  ∀ colors : List Color, 1 ≤ colors.length → colors.length ≤ 256 →
    (expandPseudo (.palette colors)).length = colors.length + 1 ∧
    (expandPseudo (.palette colors))[0]? = some (.palSize (BitVec.ofNat 9 colors.length)) ∧
    ∀ (k : Byte) (c : Color), colors[k.toNat]? = some c →
      (expandPseudo (.palette colors))[k.toNat + 1]? = some (.palWrite k c)
end

