-- ==== Sys2Proof/Laws/Memory.lean ====
section
/-! SUPPORT. The laws of storage: reading after a write, the canonical form and how it is kept, and the effect of the pixel
primitives on single storage bits. -/

namespace Sys2Proof.Machine

/-! ## Reading after a write -/

theorem memRead_cons (b : Nat) (u : Byte) (m : Memory) (a : Nat) :
    memRead ((b, u) :: m) a = if b = a then u else memRead m a := rfl

/-- The canonical form of a list with a first entry. -/
theorem memWfFrom_cons {lo a : Nat} {v : Byte} {m : Memory} :
    memWfFrom lo ((a, v) :: m) = true ↔ lo ≤ a ∧ v ≠ unlistedByte ∧ memWfFrom (a + 1) m = true := by
  simp [memWfFrom, and_assoc]

/-- The canonical form from `lo` is one from every lower bound. -/
theorem memWfFrom_mono {lo lo' : Nat} {m : Memory} (h : memWfFrom lo m = true) (hlo : lo' ≤ lo) :
    memWfFrom lo' m = true := by
  cases m with
  | nil => rfl
  | cons c m =>
    obtain ⟨a, v⟩ := c
    obtain ⟨ha, hv⟩ := memWfFrom_cons.mp h
    exact memWfFrom_cons.mpr ⟨hlo.trans ha, hv⟩

/-- Below its lower bound a canonical storage lists nothing. -/
theorem memRead_of_lt {lo a : Nat} {m : Memory} (h : memWfFrom lo m = true) (ha : a < lo) :
    memRead m a = unlistedByte := by
  induction m generalizing lo with
  | nil => rfl
  | cons c m ih =>
    obtain ⟨b, v⟩ := c
    obtain ⟨hb, -, hm⟩ := memWfFrom_cons.mp h
    rw [memRead_cons, if_neg (by omega)]
    exact ih hm (by omega)

/-- A write leaves every other byte alone. -/
theorem memRead_memWrite_other (m : Memory) {a b : Nat} (v : Byte) (h : b ≠ a) :
    memRead (memWrite m a v) b = memRead m b := by
  induction m with
  | nil =>
    unfold memWrite
    split
    · rfl
    · rw [memRead_cons, if_neg (Ne.symm h)]
  | cons c m ih =>
    obtain ⟨x, u⟩ := c
    unfold memWrite
    split_ifs with h1 h2 h3 h4
    · rfl
    · rw [memRead_cons, if_neg (Ne.symm h)]
    · rw [memRead_cons, if_neg (by omega)]
    · rw [memRead_cons, memRead_cons, if_neg (by omega), if_neg (by omega)]
    · rw [memRead_cons, memRead_cons, ih]

theorem memRead_memWrite_same_from {lo : Nat} {m : Memory} (h : memWfFrom lo m = true) (a : Nat) (v : Byte) :
    memRead (memWrite m a v) a = v := by
  induction m generalizing lo with
  | nil =>
    unfold memWrite
    split
    · next hv => rw [hv]; rfl
    · rw [memRead_cons, if_pos rfl]
  | cons c m ih =>
    obtain ⟨x, u⟩ := c
    obtain ⟨-, -, hm⟩ := memWfFrom_cons.mp h
    unfold memWrite
    split_ifs with h1 h2 h3 h4
    · rw [memRead_cons, if_neg (by omega), memRead_of_lt hm (by omega), h2]
    · rw [memRead_cons, if_pos rfl]
    · rw [memRead_of_lt hm (by omega), h4]
    · rw [memRead_cons, if_pos rfl]
    · rw [memRead_cons, if_neg (by omega), ih hm]

/-- A read after a write to the same byte gives the byte written. -/
theorem memRead_memWrite_same {m : Memory} (h : Memory.wf m = true) (a : Nat) (v : Byte) :
    memRead (memWrite m a v) a = v := memRead_memWrite_same_from h a v

/-- Reading after a write, both cases. -/
theorem memRead_memWrite {m : Memory} (h : Memory.wf m = true) (a : Nat) (v : Byte) (b : Nat) :
    memRead (memWrite m a v) b = if b = a then v else memRead m b := by
  split
  · next hb => rw [hb, memRead_memWrite_same h]
  · next hb => rw [memRead_memWrite_other m v hb]

/-! ## The canonical form is kept -/

theorem memWfFrom_memWrite {lo : Nat} {m : Memory} (h : memWfFrom lo m = true) {a : Nat} (ha : lo ≤ a) (v : Byte) :
    memWfFrom lo (memWrite m a v) = true := by
  induction m generalizing lo with
  | nil =>
    unfold memWrite
    split
    · rfl
    · next hv => exact memWfFrom_cons.mpr ⟨ha, hv, rfl⟩
  | cons c m ih =>
    obtain ⟨x, u⟩ := c
    obtain ⟨hx, hu, hm⟩ := memWfFrom_cons.mp h
    unfold memWrite
    split_ifs with h1 h2 h3 h4
    · exact h
    · exact memWfFrom_cons.mpr ⟨ha, h2, memWfFrom_cons.mpr ⟨h1, hu, hm⟩⟩
    · exact memWfFrom_mono hm (by omega)
    · exact memWfFrom_cons.mpr ⟨ha, h4, h3 ▸ hm⟩
    · exact memWfFrom_cons.mpr ⟨hx, hu, ih hm (by omega)⟩

/-- A write keeps the canonical form. -/
theorem memWrite_wf {m : Memory} (h : Memory.wf m = true) (a : Nat) (v : Byte) : Memory.wf (memWrite m a v) = true :=
  memWfFrom_memWrite h (Nat.zero_le a) v

/-- A write below `n` lists no address from `n` on. -/
theorem memBelow_memWrite {m : Memory} {n a : Nat} (h : memBelow m n = true) (ha : a < n) (v : Byte) :
    memBelow (memWrite m a v) n = true := by
  induction m with
  | nil =>
    unfold memWrite
    split
    · rfl
    · simp [memBelow, ha]
  | cons c m ih =>
    obtain ⟨x, u⟩ := c
    simp only [memBelow, List.all_cons, Bool.and_eq_true, decide_eq_true_eq] at h ih
    unfold memWrite
    split_ifs <;> simp [memBelow, h, ha, ih h.2]

theorem memWfFrom_memOfBytesFrom (a : Nat) (bytes : List Byte) : memWfFrom a (memOfBytesFrom a bytes) = true := by
  induction bytes generalizing a with
  | nil => rfl
  | cons v rest ih =>
    unfold memOfBytesFrom
    split
    · exact memWfFrom_mono (ih (a + 1)) (by omega)
    · next hv => exact memWfFrom_cons.mpr ⟨le_refl a, hv, ih (a + 1)⟩

/-- The draw of a reset has the canonical form. -/
theorem memOfBytes_wf (bytes : List Byte) : Memory.wf (memOfBytesFrom 0 bytes) = true :=
  memWfFrom_memOfBytesFrom 0 bytes

theorem memBelow_memOfBytesFrom (a : Nat) (bytes : List Byte) :
    memBelow (memOfBytesFrom a bytes) (a + bytes.length) = true := by
  induction bytes generalizing a with
  | nil => rfl
  | cons v rest ih =>
    have h := ih (a + 1)
    rw [List.length_cons, show a + (rest.length + 1) = a + 1 + rest.length by omega]
    unfold memOfBytesFrom
    split
    · exact h
    · simp only [memBelow, List.all_cons, Bool.and_eq_true, decide_eq_true_eq] at h ⊢
      exact ⟨by omega, h⟩

/-- Byte `a + k` of a draw is its entry `k`, and a byte past its end is the unlisted byte. -/
theorem memRead_memOfBytesFrom (a : Nat) (bytes : List Byte) (k : Nat) :
    memRead (memOfBytesFrom a bytes) (a + k) = (bytes[k]?).getD unlistedByte := by
  induction bytes generalizing a k with
  | nil => rfl
  | cons v rest ih =>
    unfold memOfBytesFrom
    cases k with
    | zero =>
      split
      · next hv => simpa [hv] using memRead_of_lt (memWfFrom_memOfBytesFrom (a + 1) rest) (Nat.lt_succ_self a)
      · simp [memRead_cons]
    | succ k =>
      have h := ih (a + 1) k
      rw [show a + (k + 1) = a + 1 + k by omega]
      split
      · simpa using h
      · rw [memRead_cons, if_neg (by omega)]
        simpa using h

/-- Two canonical storages that read alike are equal. -/
theorem mem_ext_from {lo : Nat} {m m' : Memory} (h : memWfFrom lo m = true) (h' : memWfFrom lo m' = true)
    (hr : ∀ a, memRead m a = memRead m' a) : m = m' := by
  induction m generalizing lo m' with
  | nil =>
    cases m' with
    | nil => rfl
    | cons c m' =>
      obtain ⟨a, v⟩ := c
      have := hr a
      rw [memRead_cons, if_pos rfl] at this
      exact absurd this.symm (memWfFrom_cons.mp h').2.1
  | cons c m ih =>
    obtain ⟨a, v⟩ := c
    obtain ⟨ha, hv, hm⟩ := memWfFrom_cons.mp h
    cases m' with
    | nil =>
      have := hr a
      rw [memRead_cons, if_pos rfl] at this
      exact absurd this hv
    | cons c' m' =>
      obtain ⟨b, u⟩ := c'
      obtain ⟨hb, hu, hm'⟩ := memWfFrom_cons.mp h'
      have hra := hr a
      have hrb := hr b
      rw [memRead_cons, memRead_cons, if_pos rfl] at hra
      rw [memRead_cons, memRead_cons, if_pos rfl] at hrb
      have hab : a = b := by
        rcases Nat.lt_trichotomy a b with hlt | heq | hgt
        · rw [if_neg (by omega), memRead_of_lt hm' (by omega)] at hra
          exact absurd hra hv
        · exact heq
        · rw [if_neg (by omega), memRead_of_lt hm (by omega)] at hrb
          exact absurd hrb.symm hu
      subst hab
      rw [if_pos rfl] at hra
      subst hra
      have hrest : ∀ x, memRead m x = memRead m' x := by
        intro x
        rcases eq_or_ne a x with rfl | hx
        · rw [memRead_of_lt hm (by omega), memRead_of_lt hm' (by omega)]
        · have := hr x
          rwa [memRead_cons, memRead_cons, if_neg hx, if_neg hx] at this
      rw [ih hm hm' hrest]

/-- Equal memories are equal data. -/
theorem mem_ext {m m' : Memory} (h : Memory.wf m = true) (h' : Memory.wf m' = true)
    (hr : ∀ a, memRead m a = memRead m' a) : m = m' := mem_ext_from h h' hr

/-- Storage bits determine a canonical storage. -/
theorem mem_ext_bits {m m' : Memory} (h : Memory.wf m = true) (h' : Memory.wf m' = true)
    (hr : ∀ g, storageBit m g = storageBit m' g) : m = m' := by
  refine mem_ext h h' fun a => BitVec.eq_of_getLsbD_eq fun i hi => ?_
  have := hr (8 * a + i)
  unfold storageBit at this
  rwa [show (8 * a + i) / 8 = a by omega, show (8 * a + i) % 8 = i by omega] at this

/-! ## Single bits -/

/-- What one turn of PixSet's loop does to every storage bit. -/
theorem storageBit_bitWrite {m : Memory} (h : Memory.wf m = true) (g : Nat) (b : Bool) (i : Nat) :
    storageBit (bitWrite m g b) i = if i = g then b else storageBit m i := by
  unfold storageBit bitWrite
  rw [memRead_memWrite h]
  by_cases hb : i / 8 = g / 8
  · rw [if_pos hb, hb]
    have hlt : i % 8 < 8 := Nat.mod_lt _ (by omega)
    by_cases hi : i % 8 = g % 8
    · have hig : i = g := by omega
      rw [if_pos hig, hi]
      have hg : g % 8 < 8 := Nat.mod_lt _ (by omega)
      simp [hg]
    · have hig : i ≠ g := by rintro rfl; exact hi rfl
      rw [if_neg hig]
      have key : ∀ (y : Byte) (x z : Nat), x < 8 → z < 8 → x ≠ z →
          ((y &&& ~~~(1#8 <<< z)) ||| ((BitVec.ofBool b).setWidth 8 <<< z)).getLsbD x = y.getLsbD x := by
        intro y x z hx hz hne
        rcases Nat.lt_or_gt_of_ne hne with h1 | h1
        · simp [hx, h1]
        · have h0 : x - z ≠ 0 := by omega
          simp [hx, h0, BitVec.getLsbD_ofBool, show ¬ x < z by omega]
      exact key _ _ _ hlt (Nat.mod_lt _ (by omega)) hi
  · rw [if_neg hb, if_neg (by rintro rfl; exact hb rfl)]

theorem bitWrite_wf {m : Memory} (h : Memory.wf m = true) (g : Nat) (b : Bool) : Memory.wf (bitWrite m g b) = true :=
  memWrite_wf h _ _

theorem pixSetBits_wf {m : Memory} (h : Memory.wf m = true) (base v k : Nat) :
    Memory.wf (pixSetBits m base v k) = true := by
  induction k with
  | zero => exact h
  | succ k ih => exact bitWrite_wf ih _ _

theorem pixSet_wf {m : Memory} (h : Memory.wf m = true) (w p v : Nat) : Memory.wf (pixSet m w p v) = true :=
  pixSetBits_wf h _ _ _

theorem mergeByte_wf {m : Memory} (h : Memory.wf m = true) (a : Nat) (mask bits : Byte) :
    Memory.wf (mergeByte m a mask bits) = true := memWrite_wf h _ _

/-- What one merge of the pack algorithm does to every byte. -/
theorem memRead_mergeByte {m : Memory} (h : Memory.wf m = true) (a : Nat) (mask bits : Byte) (b : Nat) :
    memRead (mergeByte m a mask bits) b =
      if b = a then (memRead m a &&& ~~~mask) ||| (bits &&& mask) else memRead m b := memRead_memWrite h _ _ _

theorem pack_wf {m : Memory} (h : Memory.wf m = true) (w p : Nat) (index : Byte) :
    Memory.wf (pack m w p index) = true := by
  unfold pack
  dsimp only
  split
  · exact mergeByte_wf h _ _ _
  · exact mergeByte_wf (mergeByte_wf h _ _ _) _ _ _

theorem storeCell_wf {m : Memory} (h : Memory.wf m = true) (variant : Variant) (w p v : Nat) :
    Memory.wf (storeCell variant m w p v) = true := by
  cases variant
  · exact pixSet_wf h _ _ _
  · exact pixSet_wf h _ _ _
  · exact pack_wf h _ _ _

theorem fillCells_wf {m : Memory} (h : Memory.wf m = true) (variant : Variant) (w v n : Nat) :
    Memory.wf (fillCells variant m w v n) = true := by
  induction n with
  | zero => exact h
  | succ n ih => exact storeCell_wf ih _ _ _ _

/-- The loop of PixSet after `k` turns: the first k bits of the cell hold those of v, every other bit is as before. -/
theorem storageBit_pixSetBits {m : Memory} (h : Memory.wf m = true) (base v k i : Nat) :
    storageBit (pixSetBits m base v k) i =
      if base ≤ i ∧ i < base + k then v.testBit (i - base) else storageBit m i := by
  induction k with
  | zero => rw [if_neg (by omega)]; rfl
  | succ k ih =>
    unfold pixSetBits
    rw [storageBit_bitWrite (pixSetBits_wf h base v k), ih]
    by_cases hi : i = base + k
    · subst hi
      rw [if_pos rfl, if_pos (by omega), Nat.add_sub_cancel_left]
    · rw [if_neg hi]
      by_cases hc : base ≤ i ∧ i < base + k
      · rw [if_pos hc, if_pos (by omega)]
      · rw [if_neg hc, if_neg (by omega)]

/-- Bit j of what PixGet's loop has read after `k` turns. -/
theorem testBit_pixGetBits (m : Memory) (base k j : Nat) :
    (pixGetBits m base k).testBit j = (decide (j < k) && storageBit m (base + j)) := by
  induction k with
  | zero => simp [pixGetBits]
  | succ k ih =>
    unfold pixGetBits
    rw [Nat.testBit_or, ih, Nat.testBit_shiftLeft, Nat.testBit_and, Nat.testBit_shiftRight]
    rcases Nat.lt_trichotomy j k with hlt | rfl | hgt
    · simp [show ¬ k ≤ j by omega, hlt, Nat.lt_succ_of_lt hlt]
    · simp [storageBit, BitVec.testBit_toNat]
    · have h1 : Nat.testBit 1 (j - k) = false := by
        rw [Bool.eq_false_iff, Ne, Nat.testBit_one_eq_true_iff_self_eq_zero]
        omega
      simp [h1, show ¬ j < k by omega, show ¬ j < k + 1 by omega]

end Sys2Proof.Machine
end

