-- ==== Sys2Proof/Laws/State.lean ====
section
/-! SUPPORT. What each register update of Machine/Ops.lean leaves in each field of State. -/

namespace Sys2Proof.Machine

/-! ## State.responded -/

@[simp] theorem State.responded_engState (s : State) (st : Status) (v : Word) : (s.responded st v).engState = s.engState := rfl
@[simp] theorem State.responded_cfgVariant (s : State) (st : Status) (v : Word) : (s.responded st v).cfgVariant = s.cfgVariant := rfl
@[simp] theorem State.responded_cfgRba (s : State) (st : Status) (v : Word) : (s.responded st v).cfgRba = s.cfgRba := rfl
@[simp] theorem State.responded_palSize (s : State) (st : Status) (v : Word) : (s.responded st v).palSize = s.palSize := rfl
@[simp] theorem State.responded_pal (s : State) (st : Status) (v : Word) : (s.responded st v).pal = s.pal := rfl
@[simp] theorem State.responded_width (s : State) (st : Status) (v : Word) : (s.responded st v).width = s.width := rfl
@[simp] theorem State.responded_height (s : State) (st : Status) (v : Word) : (s.responded st v).height = s.height := rfl
@[simp] theorem State.responded_bpp (s : State) (st : Status) (v : Word) : (s.responded st v).bpp = s.bpp := rfl
@[simp] theorem State.responded_bufSize (s : State) (st : Status) (v : Word) : (s.responded st v).bufSize = s.bufSize := rfl
@[simp] theorem State.responded_bufLen (s : State) (st : Status) (v : Word) : (s.responded st v).bufLen = s.bufLen := rfl
@[simp] theorem State.responded_dirty (s : State) (st : Status) (v : Word) : (s.responded st v).dirty = s.dirty := rfl
@[simp] theorem State.responded_errSticky (s : State) (st : Status) (v : Word) : (s.responded st v).errSticky = s.errSticky := rfl
@[simp] theorem State.responded_storage (s : State) (st : Status) (v : Word) : (s.responded st v).storage = s.storage := rfl
@[simp] theorem State.responded_cap (s : State) (st : Status) (v : Word) : (s.responded st v).cap = s.cap := rfl
@[simp] theorem State.responded_inbox (s : State) (st : Status) (v : Word) : (s.responded st v).inbox = s.inbox := rfl
@[simp] theorem State.responded_rsp (s : State) (st : Status) (v : Word) : (s.responded st v).rsp = some ⟨st, v⟩ := rfl

/-! ## State.stickied -/

@[simp] theorem State.stickied_engState (s : State) (e : Status) : (s.stickied e).engState = s.engState := rfl
@[simp] theorem State.stickied_cfgVariant (s : State) (e : Status) : (s.stickied e).cfgVariant = s.cfgVariant := rfl
@[simp] theorem State.stickied_cfgRba (s : State) (e : Status) : (s.stickied e).cfgRba = s.cfgRba := rfl
@[simp] theorem State.stickied_palSize (s : State) (e : Status) : (s.stickied e).palSize = s.palSize := rfl
@[simp] theorem State.stickied_pal (s : State) (e : Status) : (s.stickied e).pal = s.pal := rfl
@[simp] theorem State.stickied_width (s : State) (e : Status) : (s.stickied e).width = s.width := rfl
@[simp] theorem State.stickied_height (s : State) (e : Status) : (s.stickied e).height = s.height := rfl
@[simp] theorem State.stickied_bpp (s : State) (e : Status) : (s.stickied e).bpp = s.bpp := rfl
@[simp] theorem State.stickied_bufSize (s : State) (e : Status) : (s.stickied e).bufSize = s.bufSize := rfl
@[simp] theorem State.stickied_bufLen (s : State) (e : Status) : (s.stickied e).bufLen = s.bufLen := rfl
@[simp] theorem State.stickied_dirty (s : State) (e : Status) : (s.stickied e).dirty = s.dirty := rfl
@[simp] theorem State.stickied_errSticky (s : State) (e : Status) : (s.stickied e).errSticky = stickyWith s.errSticky e := rfl
@[simp] theorem State.stickied_storage (s : State) (e : Status) : (s.stickied e).storage = s.storage := rfl
@[simp] theorem State.stickied_cap (s : State) (e : Status) : (s.stickied e).cap = s.cap := rfl
@[simp] theorem State.stickied_inbox (s : State) (e : Status) : (s.stickied e).inbox = s.inbox := rfl
@[simp] theorem State.stickied_rsp (s : State) (e : Status) : (s.stickied e).rsp = s.rsp := rfl

/-! ## State.configured -/

@[simp] theorem State.configured_engState (s : State) (v : Variant) (rba : Bool) : (s.configured v rba).engState = s.engState := rfl
@[simp] theorem State.configured_cfgVariant (s : State) (v : Variant) (rba : Bool) : (s.configured v rba).cfgVariant = v := rfl
@[simp] theorem State.configured_cfgRba (s : State) (v : Variant) (rba : Bool) : (s.configured v rba).cfgRba = rba := rfl
@[simp] theorem State.configured_palSize (s : State) (v : Variant) (rba : Bool) : (s.configured v rba).palSize = s.palSize := rfl
@[simp] theorem State.configured_pal (s : State) (v : Variant) (rba : Bool) : (s.configured v rba).pal = s.pal := rfl
@[simp] theorem State.configured_width (s : State) (v : Variant) (rba : Bool) : (s.configured v rba).width = s.width := rfl
@[simp] theorem State.configured_height (s : State) (v : Variant) (rba : Bool) : (s.configured v rba).height = s.height := rfl
@[simp] theorem State.configured_bpp (s : State) (v : Variant) (rba : Bool) : (s.configured v rba).bpp = s.bpp := rfl
@[simp] theorem State.configured_bufSize (s : State) (v : Variant) (rba : Bool) : (s.configured v rba).bufSize = s.bufSize := rfl
@[simp] theorem State.configured_bufLen (s : State) (v : Variant) (rba : Bool) : (s.configured v rba).bufLen = s.bufLen := rfl
@[simp] theorem State.configured_dirty (s : State) (v : Variant) (rba : Bool) : (s.configured v rba).dirty = s.dirty := rfl
@[simp] theorem State.configured_errSticky (s : State) (v : Variant) (rba : Bool) : (s.configured v rba).errSticky = s.errSticky := rfl
@[simp] theorem State.configured_storage (s : State) (v : Variant) (rba : Bool) : (s.configured v rba).storage = s.storage := rfl
@[simp] theorem State.configured_cap (s : State) (v : Variant) (rba : Bool) : (s.configured v rba).cap = s.cap := rfl
@[simp] theorem State.configured_inbox (s : State) (v : Variant) (rba : Bool) : (s.configured v rba).inbox = s.inbox := rfl
@[simp] theorem State.configured_rsp (s : State) (v : Variant) (rba : Bool) : (s.configured v rba).rsp = s.rsp := rfl

/-! ## State.withPalSize -/

@[simp] theorem State.withPalSize_engState (s : State) (n : BitVec 9) : (s.withPalSize n).engState = s.engState := rfl
@[simp] theorem State.withPalSize_cfgVariant (s : State) (n : BitVec 9) : (s.withPalSize n).cfgVariant = s.cfgVariant := rfl
@[simp] theorem State.withPalSize_cfgRba (s : State) (n : BitVec 9) : (s.withPalSize n).cfgRba = s.cfgRba := rfl
@[simp] theorem State.withPalSize_palSize (s : State) (n : BitVec 9) : (s.withPalSize n).palSize = n := rfl
@[simp] theorem State.withPalSize_pal (s : State) (n : BitVec 9) : (s.withPalSize n).pal = s.pal := rfl
@[simp] theorem State.withPalSize_width (s : State) (n : BitVec 9) : (s.withPalSize n).width = s.width := rfl
@[simp] theorem State.withPalSize_height (s : State) (n : BitVec 9) : (s.withPalSize n).height = s.height := rfl
@[simp] theorem State.withPalSize_bpp (s : State) (n : BitVec 9) : (s.withPalSize n).bpp = s.bpp := rfl
@[simp] theorem State.withPalSize_bufSize (s : State) (n : BitVec 9) : (s.withPalSize n).bufSize = s.bufSize := rfl
@[simp] theorem State.withPalSize_bufLen (s : State) (n : BitVec 9) : (s.withPalSize n).bufLen = s.bufLen := rfl
@[simp] theorem State.withPalSize_dirty (s : State) (n : BitVec 9) : (s.withPalSize n).dirty = s.dirty := rfl
@[simp] theorem State.withPalSize_errSticky (s : State) (n : BitVec 9) : (s.withPalSize n).errSticky = s.errSticky := rfl
@[simp] theorem State.withPalSize_storage (s : State) (n : BitVec 9) : (s.withPalSize n).storage = s.storage := rfl
@[simp] theorem State.withPalSize_cap (s : State) (n : BitVec 9) : (s.withPalSize n).cap = s.cap := rfl
@[simp] theorem State.withPalSize_inbox (s : State) (n : BitVec 9) : (s.withPalSize n).inbox = s.inbox := rfl
@[simp] theorem State.withPalSize_rsp (s : State) (n : BitVec 9) : (s.withPalSize n).rsp = s.rsp := rfl

/-! ## State.withPalSlot -/

@[simp] theorem State.withPalSlot_engState (s : State) (k : Byte) (c : Color) : (s.withPalSlot k c).engState = s.engState := rfl
@[simp] theorem State.withPalSlot_cfgVariant (s : State) (k : Byte) (c : Color) : (s.withPalSlot k c).cfgVariant = s.cfgVariant := rfl
@[simp] theorem State.withPalSlot_cfgRba (s : State) (k : Byte) (c : Color) : (s.withPalSlot k c).cfgRba = s.cfgRba := rfl
@[simp] theorem State.withPalSlot_palSize (s : State) (k : Byte) (c : Color) : (s.withPalSlot k c).palSize = s.palSize := rfl
@[simp] theorem State.withPalSlot_pal (s : State) (k : Byte) (c : Color) : (s.withPalSlot k c).pal = s.pal.set k.toNat c k.isLt := rfl
@[simp] theorem State.withPalSlot_width (s : State) (k : Byte) (c : Color) : (s.withPalSlot k c).width = s.width := rfl
@[simp] theorem State.withPalSlot_height (s : State) (k : Byte) (c : Color) : (s.withPalSlot k c).height = s.height := rfl
@[simp] theorem State.withPalSlot_bpp (s : State) (k : Byte) (c : Color) : (s.withPalSlot k c).bpp = s.bpp := rfl
@[simp] theorem State.withPalSlot_bufSize (s : State) (k : Byte) (c : Color) : (s.withPalSlot k c).bufSize = s.bufSize := rfl
@[simp] theorem State.withPalSlot_bufLen (s : State) (k : Byte) (c : Color) : (s.withPalSlot k c).bufLen = s.bufLen := rfl
@[simp] theorem State.withPalSlot_dirty (s : State) (k : Byte) (c : Color) : (s.withPalSlot k c).dirty = s.dirty := rfl
@[simp] theorem State.withPalSlot_errSticky (s : State) (k : Byte) (c : Color) : (s.withPalSlot k c).errSticky = s.errSticky := rfl
@[simp] theorem State.withPalSlot_storage (s : State) (k : Byte) (c : Color) : (s.withPalSlot k c).storage = s.storage := rfl
@[simp] theorem State.withPalSlot_cap (s : State) (k : Byte) (c : Color) : (s.withPalSlot k c).cap = s.cap := rfl
@[simp] theorem State.withPalSlot_inbox (s : State) (k : Byte) (c : Color) : (s.withPalSlot k c).inbox = s.inbox := rfl
@[simp] theorem State.withPalSlot_rsp (s : State) (k : Byte) (c : Color) : (s.withPalSlot k c).rsp = s.rsp := rfl

/-! ## State.withStorage -/

@[simp] theorem State.withStorage_engState (s : State) (m : Memory) : (s.withStorage m).engState = s.engState := rfl
@[simp] theorem State.withStorage_cfgVariant (s : State) (m : Memory) : (s.withStorage m).cfgVariant = s.cfgVariant := rfl
@[simp] theorem State.withStorage_cfgRba (s : State) (m : Memory) : (s.withStorage m).cfgRba = s.cfgRba := rfl
@[simp] theorem State.withStorage_palSize (s : State) (m : Memory) : (s.withStorage m).palSize = s.palSize := rfl
@[simp] theorem State.withStorage_pal (s : State) (m : Memory) : (s.withStorage m).pal = s.pal := rfl
@[simp] theorem State.withStorage_width (s : State) (m : Memory) : (s.withStorage m).width = s.width := rfl
@[simp] theorem State.withStorage_height (s : State) (m : Memory) : (s.withStorage m).height = s.height := rfl
@[simp] theorem State.withStorage_bpp (s : State) (m : Memory) : (s.withStorage m).bpp = s.bpp := rfl
@[simp] theorem State.withStorage_bufSize (s : State) (m : Memory) : (s.withStorage m).bufSize = s.bufSize := rfl
@[simp] theorem State.withStorage_bufLen (s : State) (m : Memory) : (s.withStorage m).bufLen = s.bufLen := rfl
@[simp] theorem State.withStorage_dirty (s : State) (m : Memory) : (s.withStorage m).dirty = s.dirty := rfl
@[simp] theorem State.withStorage_errSticky (s : State) (m : Memory) : (s.withStorage m).errSticky = s.errSticky := rfl
@[simp] theorem State.withStorage_storage (s : State) (m : Memory) : (s.withStorage m).storage = m := rfl
@[simp] theorem State.withStorage_cap (s : State) (m : Memory) : (s.withStorage m).cap = s.cap := rfl
@[simp] theorem State.withStorage_inbox (s : State) (m : Memory) : (s.withStorage m).inbox = s.inbox := rfl
@[simp] theorem State.withStorage_rsp (s : State) (m : Memory) : (s.withStorage m).rsp = s.rsp := rfl

/-! ## State.withDirty -/

@[simp] theorem State.withDirty_engState (s : State) (d : DirtyRect) : (s.withDirty d).engState = s.engState := rfl
@[simp] theorem State.withDirty_cfgVariant (s : State) (d : DirtyRect) : (s.withDirty d).cfgVariant = s.cfgVariant := rfl
@[simp] theorem State.withDirty_cfgRba (s : State) (d : DirtyRect) : (s.withDirty d).cfgRba = s.cfgRba := rfl
@[simp] theorem State.withDirty_palSize (s : State) (d : DirtyRect) : (s.withDirty d).palSize = s.palSize := rfl
@[simp] theorem State.withDirty_pal (s : State) (d : DirtyRect) : (s.withDirty d).pal = s.pal := rfl
@[simp] theorem State.withDirty_width (s : State) (d : DirtyRect) : (s.withDirty d).width = s.width := rfl
@[simp] theorem State.withDirty_height (s : State) (d : DirtyRect) : (s.withDirty d).height = s.height := rfl
@[simp] theorem State.withDirty_bpp (s : State) (d : DirtyRect) : (s.withDirty d).bpp = s.bpp := rfl
@[simp] theorem State.withDirty_bufSize (s : State) (d : DirtyRect) : (s.withDirty d).bufSize = s.bufSize := rfl
@[simp] theorem State.withDirty_bufLen (s : State) (d : DirtyRect) : (s.withDirty d).bufLen = s.bufLen := rfl
@[simp] theorem State.withDirty_dirty (s : State) (d : DirtyRect) : (s.withDirty d).dirty = d := rfl
@[simp] theorem State.withDirty_errSticky (s : State) (d : DirtyRect) : (s.withDirty d).errSticky = s.errSticky := rfl
@[simp] theorem State.withDirty_storage (s : State) (d : DirtyRect) : (s.withDirty d).storage = s.storage := rfl
@[simp] theorem State.withDirty_cap (s : State) (d : DirtyRect) : (s.withDirty d).cap = s.cap := rfl
@[simp] theorem State.withDirty_inbox (s : State) (d : DirtyRect) : (s.withDirty d).inbox = s.inbox := rfl
@[simp] theorem State.withDirty_rsp (s : State) (d : DirtyRect) : (s.withDirty d).rsp = s.rsp := rfl

/-! ## State.madeUnusable -/

@[simp] theorem State.madeUnusable_engState (s : State) : (s.madeUnusable).engState = .unusable := rfl
@[simp] theorem State.madeUnusable_cfgVariant (s : State) : (s.madeUnusable).cfgVariant = s.cfgVariant := rfl
@[simp] theorem State.madeUnusable_cfgRba (s : State) : (s.madeUnusable).cfgRba = s.cfgRba := rfl
@[simp] theorem State.madeUnusable_palSize (s : State) : (s.madeUnusable).palSize = s.palSize := rfl
@[simp] theorem State.madeUnusable_pal (s : State) : (s.madeUnusable).pal = s.pal := rfl
@[simp] theorem State.madeUnusable_width (s : State) : (s.madeUnusable).width = s.width := rfl
@[simp] theorem State.madeUnusable_height (s : State) : (s.madeUnusable).height = s.height := rfl
@[simp] theorem State.madeUnusable_bpp (s : State) : (s.madeUnusable).bpp = s.bpp := rfl
@[simp] theorem State.madeUnusable_bufSize (s : State) : (s.madeUnusable).bufSize = s.bufSize := rfl
@[simp] theorem State.madeUnusable_bufLen (s : State) : (s.madeUnusable).bufLen = s.bufLen := rfl
@[simp] theorem State.madeUnusable_dirty (s : State) : (s.madeUnusable).dirty = s.dirty := rfl
@[simp] theorem State.madeUnusable_errSticky (s : State) : (s.madeUnusable).errSticky = s.errSticky := rfl
@[simp] theorem State.madeUnusable_storage (s : State) : (s.madeUnusable).storage = s.storage := rfl
@[simp] theorem State.madeUnusable_cap (s : State) : (s.madeUnusable).cap = s.cap := rfl
@[simp] theorem State.madeUnusable_inbox (s : State) : (s.madeUnusable).inbox = s.inbox := rfl
@[simp] theorem State.madeUnusable_rsp (s : State) : (s.madeUnusable).rsp = s.rsp := rfl

/-! ## State.allocated -/

@[simp] theorem State.allocated_engState (s : State) (w h : Half) (k n : Nat) : (s.allocated w h k n).engState = .ready := rfl
@[simp] theorem State.allocated_cfgVariant (s : State) (w h : Half) (k n : Nat) : (s.allocated w h k n).cfgVariant = s.cfgVariant := rfl
@[simp] theorem State.allocated_cfgRba (s : State) (w h : Half) (k n : Nat) : (s.allocated w h k n).cfgRba = s.cfgRba := rfl
@[simp] theorem State.allocated_palSize (s : State) (w h : Half) (k n : Nat) : (s.allocated w h k n).palSize = s.palSize := rfl
@[simp] theorem State.allocated_pal (s : State) (w h : Half) (k n : Nat) : (s.allocated w h k n).pal = s.pal := rfl
@[simp] theorem State.allocated_width (s : State) (w h : Half) (k n : Nat) : (s.allocated w h k n).width = w := rfl
@[simp] theorem State.allocated_height (s : State) (w h : Half) (k n : Nat) : (s.allocated w h k n).height = h := rfl
@[simp] theorem State.allocated_bpp (s : State) (w h : Half) (k n : Nat) : (s.allocated w h k n).bpp = BitVec.ofNat 6 k := rfl
@[simp] theorem State.allocated_bufSize (s : State) (w h : Half) (k n : Nat) : (s.allocated w h k n).bufSize = BitVec.ofNat 32 n := rfl
@[simp] theorem State.allocated_bufLen (s : State) (w h : Half) (k n : Nat) : (s.allocated w h k n).bufLen = BitVec.ofNat 32 (w.toNat * h.toNat) := rfl
@[simp] theorem State.allocated_dirty (s : State) (w h : Half) (k n : Nat) : (s.allocated w h k n).dirty = .empty := rfl
@[simp] theorem State.allocated_errSticky (s : State) (w h : Half) (k n : Nat) : (s.allocated w h k n).errSticky = s.errSticky := rfl
@[simp] theorem State.allocated_storage (s : State) (w h : Half) (k n : Nat) : (s.allocated w h k n).storage = s.storage := rfl
@[simp] theorem State.allocated_cap (s : State) (w h : Half) (k n : Nat) : (s.allocated w h k n).cap = s.cap := rfl
@[simp] theorem State.allocated_inbox (s : State) (w h : Half) (k n : Nat) : (s.allocated w h k n).inbox = s.inbox := rfl
@[simp] theorem State.allocated_rsp (s : State) (w h : Half) (k n : Nat) : (s.allocated w h k n).rsp = s.rsp := rfl

/-! ## State.taken -/

@[simp] theorem State.taken_engState (s : State) (rest : List HostMove) : (s.taken rest).engState = s.engState := rfl
@[simp] theorem State.taken_cfgVariant (s : State) (rest : List HostMove) : (s.taken rest).cfgVariant = s.cfgVariant := rfl
@[simp] theorem State.taken_cfgRba (s : State) (rest : List HostMove) : (s.taken rest).cfgRba = s.cfgRba := rfl
@[simp] theorem State.taken_palSize (s : State) (rest : List HostMove) : (s.taken rest).palSize = s.palSize := rfl
@[simp] theorem State.taken_pal (s : State) (rest : List HostMove) : (s.taken rest).pal = s.pal := rfl
@[simp] theorem State.taken_width (s : State) (rest : List HostMove) : (s.taken rest).width = s.width := rfl
@[simp] theorem State.taken_height (s : State) (rest : List HostMove) : (s.taken rest).height = s.height := rfl
@[simp] theorem State.taken_bpp (s : State) (rest : List HostMove) : (s.taken rest).bpp = s.bpp := rfl
@[simp] theorem State.taken_bufSize (s : State) (rest : List HostMove) : (s.taken rest).bufSize = s.bufSize := rfl
@[simp] theorem State.taken_bufLen (s : State) (rest : List HostMove) : (s.taken rest).bufLen = s.bufLen := rfl
@[simp] theorem State.taken_dirty (s : State) (rest : List HostMove) : (s.taken rest).dirty = s.dirty := rfl
@[simp] theorem State.taken_errSticky (s : State) (rest : List HostMove) : (s.taken rest).errSticky = s.errSticky := rfl
@[simp] theorem State.taken_storage (s : State) (rest : List HostMove) : (s.taken rest).storage = s.storage := rfl
@[simp] theorem State.taken_cap (s : State) (rest : List HostMove) : (s.taken rest).cap = s.cap := rfl
@[simp] theorem State.taken_inbox (s : State) (rest : List HostMove) : (s.taken rest).inbox = rest := rfl
@[simp] theorem State.taken_rsp (s : State) (rest : List HostMove) : (s.taken rest).rsp = none := rfl

/-! ## State.powerOn -/

@[simp] theorem State.powerOn_engState (cap : Fin 4294967296) (pal : Palette) (m : Memory) : (State.powerOn cap pal m).engState = .uninit := rfl
@[simp] theorem State.powerOn_cfgVariant (cap : Fin 4294967296) (pal : Palette) (m : Memory) : (State.powerOn cap pal m).cfgVariant = .v565 := rfl
@[simp] theorem State.powerOn_cfgRba (cap : Fin 4294967296) (pal : Palette) (m : Memory) : (State.powerOn cap pal m).cfgRba = false := rfl
@[simp] theorem State.powerOn_palSize (cap : Fin 4294967296) (pal : Palette) (m : Memory) : (State.powerOn cap pal m).palSize = 0 := rfl
@[simp] theorem State.powerOn_pal (cap : Fin 4294967296) (pal : Palette) (m : Memory) : (State.powerOn cap pal m).pal = pal := rfl
@[simp] theorem State.powerOn_width (cap : Fin 4294967296) (pal : Palette) (m : Memory) : (State.powerOn cap pal m).width = 0 := rfl
@[simp] theorem State.powerOn_height (cap : Fin 4294967296) (pal : Palette) (m : Memory) : (State.powerOn cap pal m).height = 0 := rfl
@[simp] theorem State.powerOn_bpp (cap : Fin 4294967296) (pal : Palette) (m : Memory) : (State.powerOn cap pal m).bpp = 0 := rfl
@[simp] theorem State.powerOn_bufSize (cap : Fin 4294967296) (pal : Palette) (m : Memory) : (State.powerOn cap pal m).bufSize = 0 := rfl
@[simp] theorem State.powerOn_bufLen (cap : Fin 4294967296) (pal : Palette) (m : Memory) : (State.powerOn cap pal m).bufLen = 0 := rfl
@[simp] theorem State.powerOn_dirty (cap : Fin 4294967296) (pal : Palette) (m : Memory) : (State.powerOn cap pal m).dirty = .empty := rfl
@[simp] theorem State.powerOn_errSticky (cap : Fin 4294967296) (pal : Palette) (m : Memory) : (State.powerOn cap pal m).errSticky = 0 := rfl
@[simp] theorem State.powerOn_storage (cap : Fin 4294967296) (pal : Palette) (m : Memory) : (State.powerOn cap pal m).storage = m := rfl
@[simp] theorem State.powerOn_cap (cap : Fin 4294967296) (pal : Palette) (m : Memory) : (State.powerOn cap pal m).cap = cap := rfl
@[simp] theorem State.powerOn_inbox (cap : Fin 4294967296) (pal : Palette) (m : Memory) : (State.powerOn cap pal m).inbox = [] := rfl
@[simp] theorem State.powerOn_rsp (cap : Fin 4294967296) (pal : Palette) (m : Memory) : (State.powerOn cap pal m).rsp = none := rfl

end Sys2Proof.Machine
end

