-- ==== Sys2Proof/Laws/Ops.lean ====
section
/-! SUPPORT. What each shared operation can do, said once: if it answers a next state, then one of these cases holds. -/

namespace Sys2Proof.Machine

/-- The state after an error `e` is taken (60_exceptions.md R212). -/
abbrev State.raised (s : State) (e : Status) : State := (s.stickied e).responded e 0

theorem respond_next {v : Word} {s t : State} (h : respond v s = .next t) : t = s.responded .ok v := by
  cases h; rfl

theorem raiseStatus_next {e : Status} {s t : State} (h : raiseStatus e s = .next t) : t = s.raised e := by
  cases h; rfl

theorem allocFail_next {s t : State} (h : allocFail s = .next t) : t = s.madeUnusable.raised .errAlloc := by
  cases h; rfl

theorem inUninit_next {s t : State} {body : Result} (h : inUninit s body = .next t) :
    (s.engState = .unusable ∧ t = s.raised .errUnusable) ∨ (s.engState = .ready ∧ t = s.raised .errState) ∨
      (s.engState = .uninit ∧ body = .next t) := by
  unfold inUninit at h
  split at h
  · next hs => exact .inl ⟨hs, raiseStatus_next h⟩
  · next hs => exact .inr (.inl ⟨hs, raiseStatus_next h⟩)
  · next hs => exact .inr (.inr ⟨hs, h⟩)

theorem inReady_next {s t : State} {body : Result} (h : inReady s body = .next t) :
    (s.engState = .unusable ∧ t = s.raised .errUnusable) ∨ (s.engState = .uninit ∧ t = s.raised .errState) ∨
      (s.engState = .ready ∧ body = .next t) := by
  unfold inReady at h
  split at h
  · next hs => exact .inl ⟨hs, raiseStatus_next h⟩
  · next hs => exact .inr (.inl ⟨hs, raiseStatus_next h⟩)
  · next hs => exact .inr (.inr ⟨hs, h⟩)

theorem inIndexed_next {s t : State} {body : Result} (h : inIndexed s body = .next t) :
    (s.cfgVariant ≠ .indexed ∧ t = s.raised .errVariant) ∨ (s.cfgVariant = .indexed ∧ body = .next t) := by
  unfold inIndexed at h
  split at h
  · next hs => exact .inr ⟨hs, h⟩
  · next hs => exact .inl ⟨by simp [hs], raiseStatus_next h⟩
  · next hs => exact .inl ⟨by simp [hs], raiseStatus_next h⟩

theorem withCell_next {s t : State} {p : Nat} {body : Result} (h : withCell s p body = .next t) :
    cellEnd s.cfgVariant s.bpp.toNat p ≤ s.cap.val ∧ body = .next t := by
  unfold withCell at h
  split at h
  · next hc => exact ⟨by simpa [cellFits] using hc, h⟩
  · cases h

theorem atPixel_next {s t : State} {x y : Half} {body : Nat → Result} (h : atPixel s x y body = .next t) :
    (¬ (x < s.width ∧ y < s.height) ∧ t = s.raised .errBounds) ∨
      (x < s.width ∧ y < s.height ∧ cellEnd s.cfgVariant s.bpp.toNat (slotOf s x y) ≤ s.cap.val ∧
        body (slotOf s x y) = .next t) := by
  unfold atPixel at h
  split at h
  · next hf =>
    have hf : x < s.width ∧ y < s.height := by simpa [inFrame] using hf
    exact .inr ⟨hf.1, hf.2, withCell_next h⟩
  · next hf => exact .inl ⟨by simpa [inFrame] using hf, raiseStatus_next h⟩

theorem atPosition_next {s t : State} {pos : Word} {body : Nat → Result} (h : atPosition s pos body = .next t) :
    (s.bufLen ≤ pos ∧ t = s.raised .errBounds) ∨
      (pos < s.bufLen ∧ cellEnd s.cfgVariant s.bpp.toNat pos.toNat ≤ s.cap.val ∧ body pos.toNat = .next t) := by
  unfold atPosition at h
  split at h
  · next hf => exact .inr ⟨hf, withCell_next h⟩
  · next hf => exact .inl ⟨BitVec.not_lt.mp hf, raiseStatus_next h⟩

theorem withEveryCell_next {s t : State} {body : Result} (h : withEveryCell s body = .next t) :
    body = .next t ∧
      (s.bufLen ≠ 0 → cellEnd s.cfgVariant s.bpp.toNat (s.bufLen.toNat - 1) ≤ s.cap.val) := by
  unfold withEveryCell at h
  split at h
  · next h0 => exact ⟨h, fun hne => absurd h0 hne⟩
  · exact ⟨(withCell_next h).2, fun _ => (withCell_next h).1⟩

theorem allocate_next {s t : State} {w h : Half} (hn : allocate w h s = .next t) :
    (s.cap.val < byteCount w h (bppOf s.cfgVariant s.palSize) ∧ t = s.madeUnusable.raised .errAlloc) ∨
      (byteCount w h (bppOf s.cfgVariant s.palSize) ≤ s.cap.val ∧
        t = (s.allocated w h (bppOf s.cfgVariant s.palSize)
          (byteCount w h (bppOf s.cfgVariant s.palSize))).responded .ok 0) := by
  unfold allocate at hn
  dsimp only at hn
  split at hn
  · next hc => exact .inl ⟨hc, allocFail_next hn⟩
  · next hc => exact .inr ⟨Nat.le_of_not_lt hc, respond_next hn⟩

/-- What one step can do: be idle, take a reset, answer an illegal command, or execute a decoded one. -/
theorem step_next {s t : State} (h : step s = .next t) :
    (s.inbox = [] ∧ t = s.taken []) ∨
    (∃ pal bytes rest, s.inbox = .reset pal bytes :: rest ∧
      t = (State.powerOn s.cap pal (memOfBytesFrom 0 (bytes.take s.cap.val))).taken rest) ∨
    (∃ data rest e, s.inbox = .command data :: rest ∧ decode data = .error e ∧
      t = (s.taken rest).raised .errIllegal) ∨
    (∃ data rest i, s.inbox = .command data :: rest ∧ decode data = .ok i ∧ exec i (s.taken rest) = .next t) := by
  unfold step at h
  split at h
  · next hi => cases h; exact .inl ⟨hi, rfl⟩
  · next hi => cases h; exact .inr (.inl ⟨_, _, _, hi, rfl⟩)
  · next hi =>
    split at h
    · next hd => exact .inr (.inr (.inr ⟨_, _, _, hi, hd, h⟩))
    · next hd => cases h; exact .inr (.inr (.inl ⟨_, _, _, hi, hd, rfl⟩))

end Sys2Proof.Machine
end

