-- ==== Sys2Proof/Laws/PerInstr.lean ====
section
/-! SUPPORT. One fact about every command as syntax: its encoding is legal (spec/30_encoding.md R86). -/

namespace Sys2Proof

/-- The words of an assembled command. -/
theorem cmdW0_cmdOfWords (w0 w1 w2 : Word) : cmdW0 (cmdOfWords w0 w1 w2) = w0 := by
  refine BitVec.eq_of_getLsbD_eq fun k hk => ?_
  rw [cmdW0, BitVec.getLsbD_extractLsb']
  change (decide (k < 32) && (w0 ++ w1 ++ w2 : BitVec (32 + 32 + 32)).getLsbD (64 + k)) = _
  rw [BitVec.getLsbD_append, BitVec.getLsbD_append]
  simp [hk, show ¬ 64 + k < 32 by omega, show ¬ 64 + k - 32 < 32 by omega,
    show 64 + k - 32 - 32 = k by omega]

theorem cmdW1_cmdOfWords (w0 w1 w2 : Word) : cmdW1 (cmdOfWords w0 w1 w2) = w1 := by
  refine BitVec.eq_of_getLsbD_eq fun k hk => ?_
  rw [cmdW1, BitVec.getLsbD_extractLsb']
  change (decide (k < 32) && (w0 ++ w1 ++ w2 : BitVec (32 + 32 + 32)).getLsbD (32 + k)) = _
  rw [BitVec.getLsbD_append, BitVec.getLsbD_append]
  simp [hk]

theorem cmdW2_cmdOfWords (w0 w1 w2 : Word) : cmdW2 (cmdOfWords w0 w1 w2) = w2 := by
  refine BitVec.eq_of_getLsbD_eq fun k hk => ?_
  rw [cmdW2, BitVec.getLsbD_extractLsb']
  change (decide (k < 32) && (w0 ++ w1 ++ w2 : BitVec (32 + 32 + 32)).getLsbD (0 + k)) = _
  rw [BitVec.getLsbD_append]
  simp [hk]

/-- The encoder's word 0 is the opcode and the operand bits. -/
theorem cmdW0_encode (i : Instr) : cmdW0 (encode i) = opcodeOf i ++ operandBitsOf i := cmdW0_cmdOfWords _ _ _

end Sys2Proof

namespace Sys2Proof.Laws.LegalEncoding

/-- The command's word 0 fits a row of the opcode table. -/
def Statement (i : Instr) : Prop := legalW0 (cmdW0 (encode i)) = true

/-- A command with no W0 operand and a defined opcode has a legal encoding. -/
theorem of_opcode {i : Instr} (o : Byte) (ho : opcodeOf i = o) (hb : operandBitsOf i = 0)
    (hl : legalW0 (o ++ 0#24) = true) : Statement i := by
  unfold Statement
  rw [cmdW0_encode, ho, hb]
  exact hl

theorem nop : Statement (.nop) :=
  of_opcode 0x00 rfl rfl (by decide)

theorem cfgSet (var : BitVec 2) (rba : Bool) : Statement (.cfgSet var rba) := by
  unfold Statement
  rw [cmdW0_encode]
  simp only [operandBitsOf, opcodeOf]
  revert var rba
  decide

theorem palSize (psize : BitVec 9) : Statement (.palSize psize) := by
  unfold Statement
  rw [cmdW0_encode]
  simp only [operandBitsOf, opcodeOf]
  revert psize
  decide

theorem palWrite (slot : Byte) (color : Color) : Statement (.palWrite slot color) := by
  unfold Statement
  rw [cmdW0_encode]
  simp only [operandBitsOf, opcodeOf]
  revert slot
  decide

theorem palRead (slot : Byte) : Statement (.palRead slot) := by
  unfold Statement
  rw [cmdW0_encode]
  simp only [operandBitsOf, opcodeOf]
  revert slot
  decide

theorem init (width : Half) (height : Half) : Statement (.init width height) :=
  of_opcode 0x05 rfl rfl (by decide)

theorem fill (color : Color) : Statement (.fill color) :=
  of_opcode 0x10 rfl rfl (by decide)

theorem setPixel (x : Half) (y : Half) (color : Color) : Statement (.setPixel x y color) :=
  of_opcode 0x11 rfl rfl (by decide)

theorem setPixelIndex (x : Half) (y : Half) (index : Byte) : Statement (.setPixelIndex x y index) := by
  unfold Statement
  rw [cmdW0_encode]
  simp only [operandBitsOf, opcodeOf]
  revert index
  decide

theorem get565Xy (x : Half) (y : Half) : Statement (.get565Xy x y) :=
  of_opcode 0x20 rfl rfl (by decide)

theorem get565Pos (pos : Word) : Statement (.get565Pos pos) :=
  of_opcode 0x21 rfl rfl (by decide)

theorem get666Xy (x : Half) (y : Half) : Statement (.get666Xy x y) :=
  of_opcode 0x22 rfl rfl (by decide)

theorem get666Pos (pos : Word) : Statement (.get666Pos pos) :=
  of_opcode 0x23 rfl rfl (by decide)

theorem getIndexXy (x : Half) (y : Half) : Statement (.getIndexXy x y) :=
  of_opcode 0x24 rfl rfl (by decide)

theorem getIndexPos (pos : Word) : Statement (.getIndexPos pos) :=
  of_opcode 0x25 rfl rfl (by decide)

theorem bufSize : Statement (.bufSize) :=
  of_opcode 0x30 rfl rfl (by decide)

theorem bufLength : Statement (.bufLength) :=
  of_opcode 0x31 rfl rfl (by decide)

theorem pixelBits : Statement (.pixelBits) :=
  of_opcode 0x32 rfl rfl (by decide)

theorem dirtyLo : Statement (.dirtyLo) :=
  of_opcode 0x33 rfl rfl (by decide)

theorem dirtyHi : Statement (.dirtyHi) :=
  of_opcode 0x34 rfl rfl (by decide)

theorem resetDirty : Statement (.resetDirty) :=
  of_opcode 0x35 rfl rfl (by decide)

theorem statusRead : Statement (.statusRead) :=
  of_opcode 0x36 rfl rfl (by decide)

theorem cvt565 (color : Color) : Statement (.cvt565 color) :=
  of_opcode 0x40 rfl rfl (by decide)

theorem cvt666 (color : Color) : Statement (.cvt666 color) :=
  of_opcode 0x41 rfl rfl (by decide)

theorem cvt332 (color : Color) : Statement (.cvt332 color) :=
  of_opcode 0x42 rfl rfl (by decide)

theorem cvt233 (color : Color) : Statement (.cvt233 color) :=
  of_opcode 0x43 rfl rfl (by decide)

theorem cvt332To565 (value : Word) : Statement (.cvt332To565 value) :=
  of_opcode 0x44 rfl rfl (by decide)

theorem cvt565ToRgb (value : Word) : Statement (.cvt565ToRgb value) :=
  of_opcode 0x45 rfl rfl (by decide)

theorem cvt666ToRgb (value : Word) : Statement (.cvt666ToRgb value) :=
  of_opcode 0x46 rfl rfl (by decide)

end Sys2Proof.Laws.LegalEncoding
end

