-- ==== Sys2Proof/Tests/Slice0.lean ====
section
/-! SUPPORT. Tests of the model, each about one word or one step; expected values come from spec/95_test_vectors.md or are
written out from the rule a test names. At the end, for every statement with hypotheses, a witness that meets them. -/

namespace Sys2Proof.Tests

open Sys2Proof.Machine Sys2Proof.Safety

/-! ## Well-formedness: an ill-formed term for each check (30_encoding.md R87) -/

theorem test_wellFormed_refuses_var_3 : (Instr.cfgSet 3 false).wellFormed = false := by decide
theorem test_wellFormed_refuses_psize_0 : (Instr.palSize 0).wellFormed = false := by decide
theorem test_wellFormed_refuses_psize_257 : (Instr.palSize 257).wellFormed = false := by decide
theorem test_wellFormed_takes_psize_256 : (Instr.palSize 256).wellFormed = true := by decide
theorem test_wellFormed_refuses_width_0 : (Instr.init 0 5).wellFormed = false := by decide
theorem test_wellFormed_refuses_height_0 : (Instr.init 5 0).wellFormed = false := by decide
theorem test_wellFormed_refuses_empty_palette : (Pseudo.palette []).wellFormed = false := by decide
theorem test_wellFormed_refuses_long_palette :
    (Pseudo.palette (List.replicate 257 ⟨0, 0, 0, 0⟩)).wellFormed = false := by
  rw [Pseudo.wellFormed, List.length_replicate]
  decide

/-! ## Decoding: one word for every command, written out from 30_encoding.md R82 and R84 (most of them from section 2.1 of
95_test_vectors.md) -/

theorem test_decode_nop : decodeWords 0x00000000 0x00000000 0x00000000 = .ok .nop := by decide
theorem test_decode_cfgSet : decodeWords 0x01000101 0x00000000 0x00000000 = .ok (.cfgSet 1 true) := by decide
theorem test_decode_palSize : decodeWords 0x02000100 0x00000000 0x00000000 = .ok (.palSize 256) := by decide
theorem test_decode_palWrite :
    decodeWords 0x030000FF 0x00000000 0x12345678 = .ok (.palWrite 255 ⟨0x12, 0x34, 0x56, 0x78⟩) := by decide
theorem test_decode_palRead : decodeWords 0x04000007 0x00000000 0x00000000 = .ok (.palRead 7) := by decide
theorem test_decode_init : decodeWords 0x05000000 0x014000F0 0x00000000 = .ok (.init 320 240) := by decide
theorem test_decode_fill :
    decodeWords 0x10000000 0x00000000 0x0000FF00 = .ok (.fill ⟨0, 0, 255, 0⟩) := by decide
theorem test_decode_setPixel :
    decodeWords 0x11000000 0xFFFE0001 0xFFFFFF00 = .ok (.setPixel 65534 1 ⟨255, 255, 255, 0⟩) := by decide
theorem test_decode_setPixelIndex :
    decodeWords 0x12000006 0x00020000 0x00000000 = .ok (.setPixelIndex 2 0 6) := by decide
theorem test_decode_get565Xy : decodeWords 0x20000000 0x00030001 0xDEADBEEF = .ok (.get565Xy 3 1) := by decide
theorem test_decode_get565Pos : decodeWords 0x21000000 0x00012345 0x00000000 = .ok (.get565Pos 0x12345) := by decide
theorem test_decode_get666Xy : decodeWords 0x22000000 0x00010001 0x00000000 = .ok (.get666Xy 1 1) := by decide
theorem test_decode_get666Pos : decodeWords 0x23000000 0x00000003 0x00000000 = .ok (.get666Pos 3) := by decide
theorem test_decode_getIndexXy : decodeWords 0x24000000 0x00010002 0x00000000 = .ok (.getIndexXy 1 2) := by decide
theorem test_decode_getIndexPos : decodeWords 0x25000000 0x00000002 0x00000000 = .ok (.getIndexPos 2) := by decide
theorem test_decode_bufSize : decodeWords 0x30000000 0x00000000 0x00000000 = .ok .bufSize := by decide
theorem test_decode_bufLength : decodeWords 0x31000000 0x00000000 0x00000000 = .ok .bufLength := by decide
theorem test_decode_pixelBits : decodeWords 0x32000000 0x00000000 0x00000000 = .ok .pixelBits := by decide
theorem test_decode_dirtyLo : decodeWords 0x33000000 0x00000000 0x00000000 = .ok .dirtyLo := by decide
theorem test_decode_dirtyHi : decodeWords 0x34000000 0x00000000 0x00000000 = .ok .dirtyHi := by decide
theorem test_decode_resetDirty : decodeWords 0x35000000 0x00000000 0x00000000 = .ok .resetDirty := by decide
theorem test_decode_statusRead : decodeWords 0x36000000 0x00000000 0x00000000 = .ok .statusRead := by decide
theorem test_decode_cvt565 :
    decodeWords 0x40000000 0x00000000 0xFF800000 = .ok (.cvt565 ⟨255, 128, 0, 0⟩) := by decide
theorem test_decode_cvt666 :
    decodeWords 0x41000000 0x00000000 0xFF000000 = .ok (.cvt666 ⟨255, 0, 0, 0⟩) := by decide
theorem test_decode_cvt332 :
    decodeWords 0x42000000 0x00000000 0x80808001 = .ok (.cvt332 ⟨128, 128, 128, 1⟩) := by decide
theorem test_decode_cvt233 :
    decodeWords 0x43000000 0x00000000 0x0000FF00 = .ok (.cvt233 ⟨0, 0, 255, 0⟩) := by decide
theorem test_decode_cvt332To565 : decodeWords 0x44000000 0x00000049 0x00000000 = .ok (.cvt332To565 0x49) := by decide
theorem test_decode_cvt565ToRgb : decodeWords 0x45000000 0x0000F800 0x00000000 = .ok (.cvt565ToRgb 0xF800) := by decide
theorem test_decode_cvt666ToRgb :
    decodeWords 0x46000000 0x0003F000 0x00000000 = .ok (.cvt666ToRgb 0x0003F000) := by decide

/-- The illegal words of 95_test_vectors.md section 2.1. -/
theorem test_decode_refuses :
    decodeWords 0x06000000 0 0 = .error (.undefinedOpcode 0x06) ∧
    decodeWords 0x13000000 0 0 = .error (.undefinedOpcode 0x13) ∧
    decodeWords 0x26000000 0 0 = .error (.undefinedOpcode 0x26) ∧
    decodeWords 0x37000000 0 0 = .error (.undefinedOpcode 0x37) ∧
    decodeWords 0x47000000 0 0 = .error (.undefinedOpcode 0x47) ∧
    decodeWords 0xFF000000 0 0 = .error (.undefinedOpcode 0xFF) ∧
    decodeWords 0x00000001 0 0 = .error (.reservedBitSet 0x00) ∧
    decodeWords 0x01000004 0 0 = .error (.reservedBitSet 0x01) ∧
    decodeWords 0x01000200 0 0 = .error (.reservedBitSet 0x01) ∧
    decodeWords 0x02000200 0 0 = .error (.reservedBitSet 0x02) ∧
    decodeWords 0x03000100 0 0 = .error (.reservedBitSet 0x03) ∧
    decodeWords 0x12000100 0 0 = .error (.reservedBitSet 0x12) ∧
    decodeWords 0x10800000 0 0 = .error (.reservedBitSet 0x10) := by decide

/-- The host's numbering: SET_PIXEL 3, 5, #FF000000 with W0 in the lowest 32 bits. -/
theorem test_decodeTableWord :
    decodeTableWord 96 0xFF000000_00030005_11000000 = some (.setPixel 3 5 ⟨255, 0, 0, 0⟩) ∧
    decodeTableWord 32 0xFF000000_00030005_11000000 = some (.setPixel 0 0 ⟨0, 0, 0, 0⟩) ∧
    decodeTableWord 32 0x06000000 = none := by decide

/-! ## The assembler (30_encoding.md R89 to R91) -/

theorem test_assemble_setPixel :
    assembleWords "SET_PIXEL 3, 5, #FF000000".toList = some [cmdOfWords 0x11000000 0x00030005 0xFF000000] := by decide
theorem test_assemble_palette :
    assembleLine "PALETTE #000000, #FF0000".toList =
      some [.palSize 2, .palWrite 0 ⟨0, 0, 0, 0⟩, .palWrite 1 ⟨255, 0, 0, 0⟩] := by decide
theorem test_assemble_refuses_wide_operand : assembleLine "INIT 65536, 1".toList = none := by decide

/-! ## Small states -/

/-- The palette of 95_test_vectors.md section 2.5, 0 elsewhere. -/
def fiveColors : Palette :=
  ((((Vector.replicate 256 ⟨0, 0, 0, 0⟩).set 1 ⟨255, 0, 0, 0⟩).set 2 ⟨0, 255, 0, 0⟩).set 3 ⟨0, 0, 255, 0⟩).set 4
    ⟨255, 255, 255, 0⟩

/-- UNINIT with CAP = 64 and a storage draw of one byte 0xA5 at address 20. -/
def fresh : State := State.powerOn 64 fiveColors [(20, 0xA5)]

/-- READY after INIT w, h of a variant, over storage m. -/
def readyWith (variant : Variant) (rba : Bool) (psize : BitVec 9) (w h : Half) (m : Memory) : State :=
  (((fresh.configured variant rba).withPalSize psize).withStorage m).allocated w h (bppOf variant psize)
    (byteCount w h (bppOf variant psize))

/-- A V565 buffer, 4×2. -/
def ready565 : State := readyWith .v565 false 0 4 2 []

/-- A V666 buffer, 2×2, right-aligned, slot 3 holding 0x0003F000. -/
def ready666 : State := readyWith .v666 true 0 2 2 [(13, 0xF0), (14, 0x03)]

/-- An INDEXED buffer, 3×1, five colors, holding the indices (4, 3, 6) (95_test_vectors.md section 2.3). -/
def readyIdx : State := readyWith .indexed false 5 3 1 [(0, 0x9C), (1, 0x01)]

/-- UNUSABLE after a failed INIT. -/
def dead : State := fresh.madeUnusable

/-- The response of an outcome. -/
def answerOf : Result → Option (Status × Nat)
  | .next t => t.rsp.map fun r => (r.status, r.result.toNat)
  | .fault _ => none
  | .refused _ => none

/-- The dirty rectangle of an outcome. -/
def dirtyOf : Result → Option DirtyRect
  | .next t => some t.dirty
  | .fault _ => none
  | .refused _ => none

/-- The storage of an outcome. -/
def storageOf : Result → Option Memory
  | .next t => some t.storage
  | .fault _ => none
  | .refused _ => none

/-! ## One step for each command -/

theorem test_nop : answerOf (exec .nop dead) = some (.ok, 0) := by decide
theorem test_cfgSet_reserved_variant : answerOf (exec (.cfgSet 3 true) fresh) = some (.errArg, 0) := by decide
theorem test_cfgSet_in_ready : answerOf (exec (.cfgSet 3 true) ready565) = some (.errState, 0) := by decide
theorem test_palSize_257 : answerOf (exec (.palSize 257) fresh) = some (.errArg, 0) := by decide
theorem test_palSize_in_unusable : answerOf (exec (.palSize 5) dead) = some (.errUnusable, 0) := by decide
theorem test_palWrite_in_ready : answerOf (exec (.palWrite 0 ⟨255, 255, 255, 0⟩) ready565) = some (.errState, 0) := by
  decide
theorem test_palRead : answerOf (exec (.palRead 4) ready565) = some (.ok, 0xFFFFFF00) := by decide
theorem test_init_fits : answerOf (exec (.init 4 2) { fresh with cap := 16 }) = some (.ok, 0) := by decide
theorem test_init_fails : answerOf (exec (.init 4 2) { fresh with cap := 15 }) = some (.errAlloc, 0) := by decide
theorem test_fill_dirty : dirtyOf (exec (.fill ⟨0, 0, 255, 0⟩) ready565) = some ⟨0, 0, 3, 1⟩ := by decide
theorem test_fill_indexed :
    (storageOf (exec (.fill ⟨0, 255, 0, 0⟩) readyIdx)) = some [(0, 0x92)] := by decide
theorem test_setPixel_cell :
    storageOf (exec (.setPixel 3 1 ⟨255, 0, 0, 0⟩) ready565) = some [(15, 0xF8)] := by decide
theorem test_setPixel_no_row_wrap : answerOf (exec (.setPixel 4 0 ⟨255, 0, 0, 0⟩) ready565) = some (.errBounds, 0) := by
  decide
theorem test_setPixelIndex_straddles :
    storageOf (exec (.setPixelIndex 2 0 0xFF) readyIdx) = some [(0, 0xDC), (1, 0x01)] := by decide
theorem test_setPixelIndex_variant : answerOf (exec (.setPixelIndex 9999 0 1) ready565) = some (.errVariant, 0) := by
  decide
theorem test_get565Xy_clamp : answerOf (exec (.get565Xy 2 0) readyIdx) = some (.ok, 0) := by decide
theorem test_get565Pos_from_666 : answerOf (exec (.get565Pos 3) ready666) = some (.ok, 0xF800) := by decide
theorem test_get666Xy : answerOf (exec (.get666Xy 0 0) readyIdx) = some (.ok, 0xFFFFC000) := by decide
theorem test_get666Pos_bounds : answerOf (exec (.get666Pos 8) ready565) = some (.errBounds, 0) := by decide
theorem test_getIndexXy_raw : answerOf (exec (.getIndexXy 2 0) readyIdx) = some (.ok, 6) := by decide
theorem test_getIndexPos : answerOf (exec (.getIndexPos 1) readyIdx) = some (.ok, 3) := by decide
theorem test_bufSize : answerOf (exec .bufSize readyIdx) = some (.ok, 2) := by decide
theorem test_bufLength : answerOf (exec .bufLength readyIdx) = some (.ok, 3) := by decide
theorem test_pixelBits : answerOf (exec .pixelBits readyIdx) = some (.ok, 3) := by decide
theorem test_dirtyLo : answerOf (exec .dirtyLo (ready565.withDirty ⟨1, 5, 3, 7⟩)) = some (.ok, 0x00010005) := by decide
theorem test_dirtyHi : answerOf (exec .dirtyHi (ready565.withDirty ⟨1, 5, 3, 7⟩)) = some (.ok, 0x00030007) := by decide
theorem test_resetDirty :
    dirtyOf (exec .resetDirty (ready565.withDirty ⟨1, 0, 3, 1⟩)) = some ⟨0xFFFF, 0xFFFF, 0, 0⟩ := by decide
theorem test_statusRead_ready : answerOf (exec .statusRead ready565) = some (.ok, 0x00001021) := by decide
theorem test_statusRead_unusable :
    answerOf (exec .statusRead (dead.stickied .errAlloc)) = some (.ok, 0x00100022) := by decide
theorem test_cvt565 : answerOf (exec (.cvt565 ⟨255, 128, 0, 0⟩) dead) = some (.ok, 0xFBE0) := by decide
theorem test_cvt666_left : answerOf (exec (.cvt666 ⟨18, 52, 86, 255⟩) fresh) = some (.ok, 0x10C54000) := by decide
theorem test_cvt666_right : answerOf (exec (.cvt666 ⟨18, 52, 86, 0⟩) ready666) = some (.ok, 0x00004315) := by decide
theorem test_cvt332 : answerOf (exec (.cvt332 ⟨128, 128, 128, 0⟩) fresh) = some (.ok, 0x6D) := by decide
theorem test_cvt233 : answerOf (exec (.cvt233 ⟨200, 100, 50, 0⟩) fresh) = some (.ok, 0x91) := by decide
theorem test_cvt332To565 : answerOf (exec (.cvt332To565 0xFFFFFF49) fresh) = some (.ok, 0x424A) := by decide
theorem test_cvt565ToRgb : answerOf (exec (.cvt565ToRgb 0x8410) fresh) = some (.ok, 0x83818300) := by decide
theorem test_cvt666ToRgb : answerOf (exec (.cvt666ToRgb 0xFFFC0820) ready666) = some (.ok, 0x00818100) := by decide

/-- An illegal command in UNUSABLE reports ERR_ILLEGAL first (95_test_vectors.md section 2.8). -/
theorem test_step_illegal :
    answerOf (step { dead with inbox := [.command (cmdOfWords 0x11000001 0 0)] }) = some (.errIllegal, 0) := by decide

/-- The first command after reset: BUF_SIZE, from an opcode-table word. -/
theorem test_withFetchWord : answerOf (step (State.reset.withFetchWord 32 0x30000000)) = some (.ok, 0) := by decide

/-! ## Witnesses: states and operands that meet the hypotheses of the statements -/

theorem inv_fresh : Inv fresh where
  storageCanonical := by decide
  storageBelowCap := by decide
  capPositive := by decide
  palSizeLegal := by decide
  stickyReserved := by decide
  dirtyLegal := by decide
  noBuffer := by decide
  buffer := by decide
  errorResultZero := fun _ h => by cases h

theorem inv_dead : Inv dead where
  storageCanonical := by decide
  storageBelowCap := by decide
  capPositive := by decide
  palSizeLegal := by decide
  stickyReserved := by decide
  dirtyLegal := by decide
  noBuffer := by decide
  buffer := by decide
  errorResultZero := fun _ h => by cases h

theorem inv_ready565 : Inv ready565 where
  storageCanonical := by decide
  storageBelowCap := by decide
  capPositive := by decide
  palSizeLegal := by decide
  stickyReserved := by decide
  dirtyLegal := by decide
  noBuffer := by decide
  buffer := by decide
  errorResultZero := fun _ h => by cases h

theorem inv_ready666 : Inv ready666 where
  storageCanonical := by decide
  storageBelowCap := by decide
  capPositive := by decide
  palSizeLegal := by decide
  stickyReserved := by decide
  dirtyLegal := by decide
  noBuffer := by decide
  buffer := by decide
  errorResultZero := fun _ h => by cases h

theorem inv_readyIdx : Inv readyIdx where
  storageCanonical := by decide
  storageBelowCap := by decide
  capPositive := by decide
  palSizeLegal := by decide
  stickyReserved := by decide
  dirtyLegal := by decide
  noBuffer := by decide
  buffer := by decide
  errorResultZero := fun _ h => by cases h

/-- The word of a command with no operands. -/
def bare (opc : Byte) : Command := cmdOfWords (opc ++ 0#24) 0 0

/-- `s` with one command presented. -/
def given (s : State) (c : Command) : State := { s with inbox := [.command c] }

/-- `s` with a reset applied whose storage draw is one byte 0x5A. -/
def resetting (s : State) : State := { s with inbox := [.reset fiveColors [0x5A]] }

/-- A READY state whose buffer does not fit its storage (no reachable state). -/
def broken : State := { ready565 with cap := 1 }

theorem witness_OpcodeRowsAreDisjoint :
    ∃ w0 : Word, ∃ a ∈ opcodeRows, w0 &&& a.2 = a.1 := ⟨0x01000103, (0x01000000, 0xFFFFFEFC), by decide, by decide⟩

theorem witness_EncodeRecoversUsedWords : ∃ c i, decode c = .ok i := ⟨bare 0x46, .cvt666ToRgb 0, by decide⟩

theorem witness_UnusedOperandBitsAreIgnored :
    usesW1 (opcodeField 0x40000000).toNat = false ∧ usesW2 (opcodeField 0x20000000).toNat = false ∧
    (0xFFFFFF49 : Word).toNat % 2 ^ 8 = (0x49 : Word).toNat % 2 ^ 8 ∧
    (0xFFFFF800 : Word).toNat % 2 ^ 16 = (0xF800 : Word).toNat % 2 ^ 16 ∧
    ready666.cfgRba = true ∧ (0xFFFFF000 : Word).toNat % 2 ^ 18 = (0x0003F000 : Word).toNat % 2 ^ 18 ∧
    ready565.cfgRba = false ∧ (0xFC003FFF : Word).toNat / 2 ^ 14 = (0xFC000000 : Word).toNat / 2 ^ 14 := by decide

theorem witness_StepRunsTheDecodedCommand :
    (given ready565 (bare 0x36)).inbox = .command (bare 0x36) :: [] ∧ decode (bare 0x36) = .ok .statusRead := by decide

theorem witness_IllegalCommandIsAnswered :
    (given dead (bare 0x47)).inbox = .command (bare 0x47) :: [] ∧ legalW0 (cmdW0 (bare 0x47)) = false := by decide

theorem witness_IdleStepChangesNothing : ready565.inbox = [] := by decide

theorem witness_ResetSetsEveryRegister :
    (resetting dead).inbox = .reset fiveColors [0x5A] :: [] ∧ (resetting dead).engState ≠ .uninit ∧
    (∃ t, step (resetting dead) = .next t ∧ t.engState ≠ (resetting dead).engState) ∧
    (∃ t, step (resetting ready565) = .next t ∧ t.engState ≠ (resetting ready565).engState) :=
  ⟨rfl, by decide, ⟨_, rfl, by decide⟩, ⟨_, rfl, by decide⟩⟩

theorem witness_ResetDrawsPaletteAndStorage :
    (resetting ready565).inbox = .reset fiveColors [0x5A] :: [] ∧ 0 < (resetting ready565).cap.val ∧
    63 < (resetting ready565).cap.val := ⟨rfl, by decide, by decide⟩

theorem witness_ResetMeetsInv :
    1 ≤ (1 : Fin 4294967296).val ∧ Memory.wf [(0, 0xA5)] = true ∧ memBelow [(0, 0xA5)] (1 : Fin 4294967296).val = true := by
  decide

theorem witness_StepKeepsInv : Inv ready565 ∧ ∃ t, step ready565 = .next t := ⟨inv_ready565, _, rfl⟩

theorem witness_EveryStepCompletes : Inv ready666 := inv_ready666

theorem witness_CommandStopsOnlyOutsideStorage : exec (.get565Pos 0) broken = .fault (.outsideStorage 0) := rfl

theorem witness_PermissionTable :
    (permission .resetDirty ≠ .always ∧ dead.engState = .unusable) ∧
    (permission (.init 1 1) = .uninitOnly ∧ ready565.engState = .ready) ∧
    (permission .resetDirty = .readyOnly ∧ fresh.engState = .uninit) ∧
    (permission .nop = .always ∧ exec .nop dead = .next (answered dead 0)) ∧
    (permission (.cfgSet 2 true) = .uninitOnly ∧
      exec (.cfgSet 2 true) fresh = .next ((fresh.configured .indexed true).responded .ok 0)) ∧
    (permission .resetDirty = .readyOnly ∧
      exec .resetDirty ready565 = .next ((ready565.withDirty .empty).responded .ok 0)) :=
  ⟨by decide, by decide, by decide, ⟨rfl, rfl⟩, ⟨rfl, rfl⟩, ⟨rfl, rfl⟩⟩

/-- The legal words of one command for each case of firstError. -/
theorem witness_FirstApplicableErrorIsReported :
    Inv (given fresh (bare 0x06)) ∧ legalW0 (cmdW0 (bare 0x06)) = false ∧
    firstError (.init 65535 65535) fresh = some .errAlloc ∧ decode (cmdOfWords 0x05000000 0xFFFFFFFF 0) = .ok (.init 65535 65535) ∧
    firstError (.init 0 0) dead = some .errUnusable ∧ firstError (.cfgSet 3 false) ready565 = some .errState ∧
    firstError (.setPixelIndex 9999 0 1) ready565 = some .errVariant ∧
    firstError (.init 0 1) (fresh.configured .indexed false) = some .errArg ∧
    firstError (.init 1 1) (fresh.configured .indexed false) = some .errConfig ∧
    firstError (.get565Pos 8) ready565 = some .errBounds ∧ firstError (.get565Pos 7) ready565 = none :=
  ⟨{ inv_fresh with }, by decide, by decide, by decide, by decide, by decide, by decide, by decide, by decide, by decide,
    by decide⟩

theorem witness_CommandHasOneOfTwoOutcomes :
    (given fresh (bare 0x00)).inbox = .command (bare 0x00) :: [] ∧
      step (given fresh (bare 0x00)) = .next (answered fresh 0) := ⟨rfl, rfl⟩

theorem witness_StickyBitsStayUntilReset :
    ((given dead (bare 0x10)).inbox = .command (bare 0x10) :: [] ∧ ∃ t, step (given dead (bare 0x10)) = .next t) ∧
    ((given fresh (bare 0x00)).inbox = .command (bare 0x00) :: [] ∧ ∃ t, step (given fresh (bare 0x00)) = .next t) ∧
    resetNext (resetting dead) ∧ ∃ t, step (resetting dead) = .next t :=
  ⟨⟨rfl, _, rfl⟩, ⟨rfl, _, rfl⟩, ⟨_, _, _, rfl⟩, _, rfl⟩

theorem witness_EngineStateMoves :
    (∃ t, step (given fresh (cmdOfWords 0x05000000 0x00040002 0)) = .next t ∧
      ¬ resetNext (given fresh (cmdOfWords 0x05000000 0x00040002 0)) ∧ fresh.engState = .uninit ∧ t.engState ≠ .uninit) ∧
    (∃ t, step ready565 = .next t ∧ ¬ resetNext ready565 ∧ ready565.engState = .ready) ∧
    (∃ t, step dead = .next t ∧ ¬ resetNext dead ∧ dead.engState = .unusable) ∧
    (∃ t, step (resetting dead) = .next t ∧ resetNext (resetting dead)) :=
  ⟨⟨_, rfl, (by rintro ⟨_, _, _, h⟩; cases h), rfl, by decide⟩,
    ⟨_, rfl, (by rintro ⟨_, _, _, h⟩; cases h), rfl⟩, ⟨_, rfl, (by rintro ⟨_, _, _, h⟩; cases h), rfl⟩,
    ⟨_, rfl, _, _, _, rfl⟩⟩

theorem witness_ConfigurationIsFrozenOutsideUninit :
    ready565.engState ≠ .uninit ∧ ∃ t, exec (.fill ⟨1, 2, 3, 4⟩) ready565 = .next t := ⟨by decide, _, rfl⟩

theorem witness_OnlyPixelWritesChangeStorage :
    (∃ t, exec (.init 4 2) fresh = .next t ∧ fresh.engState ≠ .ready) ∧
    (∃ t, exec (.get565Pos 7) ready565 = .next t ∧ groupRange (.get565Pos 7) ≠ (0x10, 0x12) ∧
      Instr.get565Pos 7 ≠ .resetDirty ∧ ∀ w h, Instr.get565Pos 7 ≠ .init w h) :=
  ⟨⟨_, rfl, by decide⟩, _, rfl, by decide, by decide, fun _ _ h => by cases h⟩

/-- The first padding bit of a 3×1 buffer at BPP 3 is bit 9. -/
theorem witness_PaddingIsNeverWritten :
    Inv readyIdx ∧ (∃ t, exec (.fill ⟨255, 255, 255, 0⟩) readyIdx = .next t) ∧
      readyIdx.bufLen.toNat * readyIdx.bpp.toNat ≤ 9 := ⟨inv_readyIdx, ⟨_, rfl⟩, by decide⟩

theorem witness_PixelReadsChangeNothing :
    groupRange (.getIndexPos 2) = (0x20, 0x25) ∧ ∃ t, exec (.getIndexPos 2) readyIdx = .next t := ⟨rfl, _, rfl⟩

theorem witness_CodecReadsOnlyRba :
    groupRange (.cvt666ToRgb 5) = (0x40, 0x46) ∧ ready565.cfgRba = dead.cfgRba := by decide

theorem inv_ready565_cap16 : Inv { ready565 with cap := 16 } where
  storageCanonical := by decide
  storageBelowCap := by decide
  capPositive := by decide
  palSizeLegal := by decide
  stickyReserved := by decide
  dirtyLegal := by decide
  noBuffer := by decide
  buffer := by decide
  errorResultZero := fun _ h => by cases h

theorem witness_OnlyInitReadsCap :
    (∀ w h, Instr.get565Pos 7 ≠ .init w h) ∧ Inv ready565 ∧ Inv { ready565 with cap := 16 } ∧
      ∃ t, exec (.get565Pos 7) ready565 = .next t :=
  ⟨(fun _ _ h => by cases h), inv_ready565, inv_ready565_cap16, _, rfl⟩

/-- The engine states that the outcome statements of CFG_SET, PAL_WRITE and RESET_DIRTY speak of. -/
theorem witness_CfgSetOutcomes : fresh.engState = .uninit ∧ ready565.engState = .ready ∧ dead.engState = .unusable := by
  decide

theorem witness_PalSizeOutcomes :
    fresh.engState = .uninit ∧ 1 ≤ (1 : BitVec 9).toNat ∧ (256 : BitVec 9).toNat ≤ 256 ∧ (0 : BitVec 9).toNat = 0 ∧
    256 < (257 : BitVec 9).toNat ∧ ready565.engState = .ready ∧ dead.engState = .unusable := by decide

theorem witness_PalWriteOutcomes :
    fresh.engState = .uninit ∧ (254 : Byte) ≠ 255 ∧ ready565.engState = .ready ∧ dead.engState = .unusable := by decide

/-- INIT 4, 2 needs 16 bytes as V565: CAP = 15 fails, CAP = 16 succeeds. -/
theorem witness_InitOutcomes :
    (ready565.engState = .ready ∧ dead.engState = .unusable) ∧ fresh.engState = .uninit ∧
    (fresh.configured .indexed false).palSize = 0 ∧
    leastWidth ({ fresh with cap := 15 } : State).cfgVariant 0 16 ∧
    ({ fresh with cap := 15 } : State).cap.val < (4 * 2 * 16 + 7) / 8 ∧
    (4 * 2 * 16 + 7) / 8 ≤ ({ fresh with cap := 16 } : State).cap.val :=
  ⟨by decide, by decide, by decide, rfl, by decide, by decide⟩

theorem witness_PackAndUnpackAreThePixelPrimitives : Memory.wf [(0, 0x9C), (1, 0x01)] = true ∧ 1 ≤ 8 ∧ 8 ≤ 8 := by decide

theorem witness_FixedWidthCellsAreLittleEndian : Memory.wf [(13, 0xF0), (14, 0x03)] = true := by decide

/-- The last pixel of the frame, in every variant. -/
theorem witness_SetPixelWritesItsCell :
    (Inv ready565 ∧ ready565.engState = .ready ∧ (3 : Half) < ready565.width ∧ (1 : Half) < ready565.height) ∧
    (Inv ready666 ∧ ready666.engState = .ready ∧ (1 : Half) < ready666.width ∧ (1 : Half) < ready666.height) ∧
    (Inv readyIdx ∧ readyIdx.engState = .ready ∧ (2 : Half) < readyIdx.width ∧ (0 : Half) < readyIdx.height) :=
  ⟨⟨inv_ready565, by decide⟩, ⟨inv_ready666, by decide⟩, ⟨inv_readyIdx, by decide⟩⟩

theorem witness_SetPixelIndexWritesItsCell :
    Inv readyIdx ∧ readyIdx.engState = .ready ∧ readyIdx.cfgVariant = .indexed ∧ (2 : Half) < readyIdx.width ∧
      (0 : Half) < readyIdx.height := ⟨inv_readyIdx, by decide⟩

theorem witness_FillWritesEveryCell :
    (Inv ready565 ∧ ready565.engState = .ready ∧ 7 < ready565.bufLen.toNat ∧ 15 < ready565.bpp.toNat) ∧
    (Inv readyIdx ∧ readyIdx.engState = .ready ∧ readyIdx.bufLen.toNat * readyIdx.bpp.toNat ≤ 9 ∧
      readyIdx.bufSize.toNat ≤ 2) := ⟨⟨inv_ready565, by decide⟩, ⟨inv_readyIdx, by decide⟩⟩

/-- White is at slot 4 and nowhere below; (18, 52, 86) is at no slot below PAL_SIZE. -/
theorem witness_PaletteSearchFindsTheLowestMatch :
    ((4 : Byte).toNat < readyIdx.palSize.toNat ∧ (palSlot readyIdx 4).r = 255 ∧ (palSlot readyIdx 4).g = 255 ∧
      (palSlot readyIdx 4).b = 255) ∧
    ¬ ((palSlot readyIdx 0).r = 255 ∧ (palSlot readyIdx 0).g = 255) ∧
    ¬ ((palSlot readyIdx 1).r = 255 ∧ (palSlot readyIdx 1).g = 255) ∧
    ¬ ((palSlot readyIdx 2).r = 255 ∧ (palSlot readyIdx 2).g = 255) ∧
    ¬ ((palSlot readyIdx 3).r = 255 ∧ (palSlot readyIdx 3).g = 255) ∧
    (palSlot readyIdx 0).r ≠ 18 ∧ (palSlot readyIdx 1).r ≠ 18 ∧ (palSlot readyIdx 2).r ≠ 18 ∧
    (palSlot readyIdx 3).r ≠ 18 ∧ (palSlot readyIdx 4).r ≠ 18 := by decide

theorem witness_PixelWriteWidensByMinAndMax :
    (Inv ready565 ∧ ready565.engState = .ready ∧ (3 : Half) < ready565.width ∧ (1 : Half) < ready565.height ∧
      ∃ t, exec (.setPixel 3 1 ⟨255, 0, 0, 0⟩) ready565 = .next t) ∧
    (Inv readyIdx ∧ readyIdx.cfgVariant = .indexed ∧ (2 : Half) < readyIdx.width ∧ (0 : Half) < readyIdx.height ∧
      ∃ t, exec (.setPixelIndex 2 0 6) readyIdx = .next t) :=
  ⟨⟨inv_ready565, by decide, by decide, by decide, _, rfl⟩,
    ⟨inv_readyIdx, by decide, by decide, by decide, _, rfl⟩⟩

theorem witness_DirtyRectangleIsTheLeastCover :
    (Inv ready666 ∧ ready666.engState = .ready ∧ (1 : Half) < ready666.width ∧ (0 : Half) < ready666.height ∧
      (∃ t, exec (.setPixel 1 0 ⟨255, 0, 0, 0⟩) ready666 = .next t) ∧
      ready666.dirty = ⟨0xFFFF, 0xFFFF, 0x0000, 0x0000⟩) ∧
    (Inv readyIdx ∧ readyIdx.engState = .ready ∧ readyIdx.cfgVariant = .indexed ∧ (2 : Half) < readyIdx.width ∧
      (0 : Half) < readyIdx.height ∧ ∃ t, exec (.setPixelIndex 2 0 6) readyIdx = .next t) :=
  ⟨⟨inv_ready666, by decide, by decide, by decide, ⟨_, rfl⟩, by decide⟩,
    ⟨inv_readyIdx, by decide, by decide, by decide, by decide, _, rfl⟩⟩

theorem witness_Get565ReadsItsCell :
    Inv ready565 ∧ ready565.engState = .ready ∧ (7 : Word) < ready565.bufLen ∧ (3 : Half) < ready565.width ∧
      (1 : Half) < ready565.height := ⟨inv_ready565, by decide⟩

theorem witness_Get666ReadsItsCell :
    Inv ready666 ∧ ready666.engState = .ready ∧ (3 : Word) < ready666.bufLen ∧ (1 : Half) < ready666.width ∧
      (1 : Half) < ready666.height := ⟨inv_ready666, by decide⟩

theorem witness_GetIndexReadsItsCell :
    Inv readyIdx ∧ readyIdx.engState = .ready ∧ readyIdx.cfgVariant = .indexed ∧ (2 : Word) < readyIdx.bufLen ∧
      (2 : Half) < readyIdx.width ∧ (0 : Half) < readyIdx.height := ⟨inv_readyIdx, by decide⟩

theorem witness_IndexWriteReadsBack :
    Inv readyIdx ∧ readyIdx.engState = .ready ∧ readyIdx.cfgVariant = .indexed ∧ (1 : Half) < readyIdx.width ∧
      (0 : Half) < readyIdx.height ∧ (2 : Word) < readyIdx.bufLen ∧
      (2 : Word).toNat ≠ (1 : Half).toNat + (0 : Half).toNat * readyIdx.width.toNat := ⟨inv_readyIdx, by decide⟩

theorem witness_SetPixelReadsBack :
    (Inv ready565 ∧ ready565.engState = .ready ∧ ready565.cfgVariant = .v565 ∧ (0 : Half) < ready565.width ∧
      (0 : Half) < ready565.height) ∧
    (Inv ready666 ∧ ready666.engState = .ready ∧ ready666.cfgVariant = .v666 ∧ (1 : Half) < ready666.width ∧
      (1 : Half) < ready666.height) ∧
    (Inv readyIdx ∧ readyIdx.engState = .ready ∧ readyIdx.cfgVariant = .indexed ∧ (2 : Half) < readyIdx.width ∧
      (0 : Half) < readyIdx.height) := ⟨⟨inv_ready565, by decide⟩, ⟨inv_ready666, by decide⟩, ⟨inv_readyIdx, by decide⟩⟩

theorem witness_FillReadsBackEverywhere :
    (Inv ready565 ∧ ready565.engState = .ready ∧ ready565.cfgVariant = .v565 ∧ (7 : Word) < ready565.bufLen) ∧
    (Inv ready666 ∧ ready666.engState = .ready ∧ ready666.cfgVariant = .v666 ∧ (3 : Word) < ready666.bufLen) ∧
    (Inv readyIdx ∧ readyIdx.engState = .ready ∧ readyIdx.cfgVariant = .indexed ∧ (2 : Word) < readyIdx.bufLen) :=
  ⟨⟨inv_ready565, by decide⟩, ⟨inv_ready666, by decide⟩, ⟨inv_readyIdx, by decide⟩⟩

theorem witness_ResetDirtyOutcomes :
    ready565.engState = .ready ∧ fresh.engState = .uninit ∧ dead.engState = .unusable := by decide

theorem witness_ScaleIsFloorDivision : 1 ≤ 255 ∧ 15 ≤ 16 ∧ 255 ≤ 255 := by decide

theorem witness_PseudoInstructionsExpand :
    1 ≤ [(⟨1, 2, 3, 4⟩ : Color)].length ∧ [(⟨1, 2, 3, 4⟩ : Color)].length ≤ 256 ∧
      [(⟨1, 2, 3, 4⟩ : Color)][(0 : Byte).toNat]? = some ⟨1, 2, 3, 4⟩ := by decide

end Sys2Proof.Tests
end

section
/-! Under `Inv` every access of a permitted pixel command lies in storage (20_memory.md R50), so the one test of CAP that
a command other than INIT makes never fails. -/

namespace Sys2Proof.Machine

open Sys2Proof.Safety

/-! ## The pixel bit width -/

theorem le_widthFrom (psize fuel w : Nat) : w ≤ widthFrom psize fuel w := by
  induction fuel generalizing w with
  | zero => exact le_refl w
  | succ fuel ih =>
    unfold widthFrom
    split
    · exact le_refl w
    · exact (Nat.le_succ w).trans (ih (w + 1))

/-- The search for a width stops at or before every width that is enough. -/
theorem widthFrom_le {psize fuel w v : Nat} (hv : psize ≤ 2 ^ v) (hw : w ≤ v) : widthFrom psize fuel w ≤ v := by
  induction fuel generalizing w with
  | zero => exact hw
  | succ fuel ih =>
    unfold widthFrom
    split
    · exact hw
    · next hlt =>
      have hne : w ≠ v := by rintro rfl; exact hlt hv
      exact ih (by omega)

theorem one_le_bppOf (variant : Variant) (psize : BitVec 9) : 1 ≤ bppOf variant psize := by
  cases variant with
  | v565 | v666 => simp [bppOf]
  | indexed => exact le_widthFrom _ _ _

theorem bppOf_indexed_le_eight {psize : BitVec 9} (h : psize.toNat ≤ 256) : bppOf .indexed psize ≤ 8 :=
  widthFrom_le h (by omega)

/-! ## Cells and the buffer -/

/-- The cell of a slot below `n` ends within the bytes of `n` cells. An index cell needs its width to be at most 8: the
second merge of the pack algorithm touches the byte at which the cell ends (20_memory.md R56, R59). -/
theorem cellEnd_le_of_slot_lt {variant : Variant} {w p n : Nat} (hp : p < n)
    (hw : variant = .indexed → 1 ≤ w ∧ w ≤ 8) : cellEnd variant w p ≤ (n * w + 7) / 8 := by
  have hend : p * w + w ≤ n * w := by
    rw [← Nat.succ_mul]
    exact Nat.mul_le_mul_right w hp
  cases variant with
  | v565 | v666 =>
    dsimp only [cellEnd]
    omega
  | indexed =>
    obtain ⟨hpos, hle⟩ := hw rfl
    dsimp only [cellEnd]
    split <;> omega

/-- The slot of a pixel of the frame is one of the buffer (42_pixel_write.md R156). -/
theorem slotOf_lt_of_inFrame {s : State} {x y : Half} (h : inFrame s x y = true) :
    slotOf s x y < s.width.toNat * s.height.toNat := by
  obtain ⟨hx, hy⟩ : x.toNat < s.width.toNat ∧ y.toNat < s.height.toNat := by
    simpa [inFrame, BitVec.lt_def] using h
  calc x.toNat + y.toNat * s.width.toNat
      < s.width.toNat + y.toNat * s.width.toNat := by omega
    _ = (y.toNat + 1) * s.width.toNat := by ring
    _ ≤ s.height.toNat * s.width.toNat := Nat.mul_le_mul_right _ hy
    _ = s.width.toNat * s.height.toNat := Nat.mul_comm _ _

/-! ## The shared checks in a READY state of the invariant -/

section
variable {s : State} (hinv : Inv s) (hready : s.engState = .ready)
include hinv hready

/-- Every slot of the buffer has its cell in storage: the fault of an address that does not exist is out of reach. -/
theorem cellFits_of_slot_lt_bufLen {p : Nat} (hp : p < s.bufLen.toNat) : cellFits s p = true := by
  obtain ⟨-, -, hbpp, -, hlen, hsize, hcap⟩ := hinv.buffer hready
  have hwidth : s.cfgVariant = .indexed → 1 ≤ s.bpp.toNat ∧ s.bpp.toNat ≤ 8 := by
    intro hv
    rw [hbpp, hv]
    exact ⟨one_le_bppOf _ _, bppOf_indexed_le_eight hinv.palSizeLegal⟩
  have hcell : cellEnd s.cfgVariant s.bpp.toNat p ≤ s.bufSize.toNat := by
    rw [hsize, ← hlen]
    exact cellEnd_le_of_slot_lt hp hwidth
  exact decide_eq_true (hcell.trans hcap)

theorem withCell_of_slot_lt_bufLen {p : Nat} (hp : p < s.bufLen.toNat) (body : Result) : withCell s p body = body :=
  if_pos (cellFits_of_slot_lt_bufLen hinv hready hp)

theorem atPixel_of_inv (x y : Half) (body : Nat → Result) :
    atPixel s x y body = if inFrame s x y then body (slotOf s x y) else raiseStatus .errBounds s := by
  unfold atPixel
  split
  · next hframe =>
    obtain ⟨-, -, -, -, hlen, -, -⟩ := hinv.buffer hready
    exact withCell_of_slot_lt_bufLen hinv hready (hlen ▸ slotOf_lt_of_inFrame hframe) _
  · rfl

theorem atPosition_of_inv (pos : Word) (body : Nat → Result) :
    atPosition s pos body = if pos < s.bufLen then body pos.toNat else raiseStatus .errBounds s := by
  unfold atPosition
  split
  · next hpos => exact withCell_of_slot_lt_bufLen hinv hready (BitVec.lt_def.mp hpos) _
  · rfl

theorem withEveryCell_of_inv (body : Result) : withEveryCell s body = body := by
  unfold withEveryCell
  split
  · rfl
  · next hne =>
    have hpos : s.bufLen.toNat ≠ 0 := fun h => hne (BitVec.eq_of_toNat_eq h)
    exact withCell_of_slot_lt_bufLen hinv hready (by omega) _

end

/-! ## Commands and a change of CAP

`exec i (s.withCap c) = onNext (·.withCap c) (exec i s)`: the command commutes with a change of CAP. Each shared operation
commutes if its body does; those that test CAP do so under `Inv` on both sides, where the test is known to pass. -/

/-- `s` with capacity `c`. -/
def State.withCap (s : State) (c : Fin 4294967296) : State := { s with cap := c }

/-- The outcome with `f` applied to its next state, if it has one. -/
def onNext (f : State → State) : Result → Result
  | .next t => .next (f t)
  | .fault r => .fault r
  | .refused r => .refused r

section
variable {s : State} {c : Fin 4294967296} {body body' : Result}

theorem inUninit_withCap (h : body' = onNext (·.withCap c) body) :
    inUninit (s.withCap c) body' = onNext (·.withCap c) (inUninit s body) := by
  unfold inUninit
  rw [show (s.withCap c).engState = s.engState from rfl]
  cases s.engState with
  | uninit => exact h
  | ready | unusable => rfl

/-- The body of a READY command matters in READY only, so it may be compared under that hypothesis. -/
theorem inReady_withCap (h : s.engState = .ready → body' = onNext (·.withCap c) body) :
    inReady (s.withCap c) body' = onNext (·.withCap c) (inReady s body) := by
  unfold inReady
  rw [show (s.withCap c).engState = s.engState from rfl]
  cases hs : s.engState with
  | ready => exact h hs
  | uninit | unusable => rfl

theorem inIndexed_withCap (h : body' = onNext (·.withCap c) body) :
    inIndexed (s.withCap c) body' = onNext (·.withCap c) (inIndexed s body) := by
  unfold inIndexed
  rw [show (s.withCap c).cfgVariant = s.cfgVariant from rfl]
  cases s.cfgVariant with
  | indexed => exact h
  | v565 | v666 => rfl

end

section
variable {s : State} {c : Fin 4294967296} (hinv : Inv s) (hinv' : Inv (s.withCap c)) (hready : s.engState = .ready)
include hinv hinv' hready

theorem atPixel_withCap (x y : Half) {body body' : Nat → Result} (h : ∀ p, body' p = onNext (·.withCap c) (body p)) :
    atPixel (s.withCap c) x y body' = onNext (·.withCap c) (atPixel s x y body) := by
  rw [atPixel_of_inv hinv hready, atPixel_of_inv hinv' hready, show inFrame (s.withCap c) x y = inFrame s x y from rfl]
  split
  · exact h _
  · rfl

theorem atPosition_withCap (pos : Word) {body body' : Nat → Result} (h : ∀ p, body' p = onNext (·.withCap c) (body p)) :
    atPosition (s.withCap c) pos body' = onNext (·.withCap c) (atPosition s pos body) := by
  rw [atPosition_of_inv hinv hready, atPosition_of_inv hinv' hready, show (s.withCap c).bufLen = s.bufLen from rfl]
  split
  · exact h _
  · rfl

theorem withEveryCell_withCap {body body' : Result} (h : body' = onNext (·.withCap c) body) :
    withEveryCell (s.withCap c) body' = onNext (·.withCap c) (withEveryCell s body) := by
  rw [withEveryCell_of_inv hinv hready, withEveryCell_of_inv hinv' hready, h]

end

theorem execCfgSet_withCap (s : State) (c : Fin 4294967296) (var : BitVec 2) (rba : Bool) :
    execCfgSet var rba (s.withCap c) = onNext (·.withCap c) (execCfgSet var rba s) := by
  refine inUninit_withCap ?_
  cases variantOfBits var with
  | none | some => rfl

theorem execPalSize_withCap (s : State) (c : Fin 4294967296) (psize : BitVec 9) :
    execPalSize psize (s.withCap c) = onNext (·.withCap c) (execPalSize psize s) := by
  refine inUninit_withCap ?_
  split <;> rfl

/-- Every command but INIT commutes with a change of CAP between two states of the invariant. -/
theorem exec_withCap {s : State} {c : Fin 4294967296} (hinv : Inv s) (hinv' : Inv (s.withCap c)) (i : Instr)
    (hi : ∀ w h, i ≠ .init w h) : exec i (s.withCap c) = onNext (·.withCap c) (exec i s) := by
  cases i with
  | nop | palRead | bufSize | bufLength | pixelBits | dirtyLo | dirtyHi | statusRead | cvt565 | cvt666 | cvt332 | cvt233
  | cvt332To565 | cvt565ToRgb | cvt666ToRgb => rfl
  | cfgSet var rba => exact execCfgSet_withCap s c var rba
  | palSize psize => exact execPalSize_withCap s c psize
  | palWrite => exact inUninit_withCap rfl
  | init w h => exact absurd rfl (hi w h)
  | resetDirty => exact inReady_withCap fun _ => rfl
  | fill => exact inReady_withCap fun hready => withEveryCell_withCap hinv hinv' hready rfl
  | setPixel x y | get565Xy x y | get666Xy x y =>
    exact inReady_withCap fun hready => atPixel_withCap hinv hinv' hready x y fun _ => rfl
  | get565Pos pos | get666Pos pos =>
    exact inReady_withCap fun hready => atPosition_withCap hinv hinv' hready pos fun _ => rfl
  | setPixelIndex x y | getIndexXy x y =>
    exact inReady_withCap fun hready => inIndexed_withCap (atPixel_withCap hinv hinv' hready x y fun _ => rfl)
  | getIndexPos pos =>
    exact inReady_withCap fun hready => inIndexed_withCap (atPosition_withCap hinv hinv' hready pos fun _ => rfl)

/-- Settles O27: the outcome in the other state is the same outcome with its CAP replaced. -/
theorem onlyInitReadsCap : Obligations.OnlyInitReadsCap := by
  intro i s t c hi hinv hinv' hexec
  have hcommutes : exec i (s.withCap c) = onNext (·.withCap c) (exec i s) := exec_withCap hinv hinv' i hi
  rw [hexec] at hcommutes
  exact hcommutes

end Sys2Proof.Machine
end

section
/-! What a command that answers a next state has done, said once for all 29 commands; the frame statements follow from
it. -/

namespace Sys2Proof.Machine

open Sys2Proof.Safety

/-! ## The effects of commands -/

/-- The state after `v` is stored at the pixel (x, y) and the dirty rectangle is widened to it (42_pixel_write.md R154,
R155). -/
def State.pixelWritten (s : State) (x y : Half) (v : Nat) : State :=
  ((s.withStorage (stored s (slotOf s x y) v)).withDirty (widenRect s.dirty x y)).responded .ok 0

/-- The ways in which a command can complete: `Completes s i t` if in state `s` the command `i` may answer the state `t`.
`exec_next` says that there is no other. -/
inductive Completes (s : State) : Instr → State → Prop where
  | answered (i : Instr) (v : Word) : Completes s i (s.responded .ok v)
  | raised (i : Instr) (e : Status) (he : e ≠ .ok) : Completes s i (s.raised e)
  | configured (var : BitVec 2) (rba : Bool) (v : Variant) (hs : s.engState = .uninit) :
      Completes s (.cfgSet var rba) ((s.configured v rba).responded .ok 0)
  | paletteSized (n : BitVec 9) (hs : s.engState = .uninit) (hpos : 0 < n.toNat) (hle : n.toNat ≤ 256) :
      Completes s (.palSize n) ((s.withPalSize n).responded .ok 0)
  | paletteWritten (slot : Byte) (c : Color) (hs : s.engState = .uninit) :
      Completes s (.palWrite slot c) ((s.withPalSlot slot c).responded .ok 0)
  | allocFailed (w h : Half) (hs : s.engState = .uninit) : Completes s (.init w h) (s.madeUnusable.raised .errAlloc)
  | allocated (w h : Half) (hs : s.engState = .uninit) (hw : w ≠ 0) (hh : h ≠ 0)
      (hpal : s.cfgVariant = .indexed → s.palSize ≠ 0)
      (hcap : byteCount w h (bppOf s.cfgVariant s.palSize) ≤ s.cap.val) :
      Completes s (.init w h)
        ((s.allocated w h (bppOf s.cfgVariant s.palSize)
          (byteCount w h (bppOf s.cfgVariant s.palSize))).responded .ok 0)
  | filled (c : Color) (hs : s.engState = .ready) :
      Completes s (.fill c)
        (((s.withStorage (filled s (storeVal s c))).withDirty (fullFrame s.width s.height)).responded .ok 0)
  | pixelSet (x y : Half) (c : Color) (hs : s.engState = .ready) (hx : x < s.width) (hy : y < s.height) :
      Completes s (.setPixel x y c) (s.pixelWritten x y (storeVal s c))
  | indexSet (x y : Half) (k : Byte) (hs : s.engState = .ready) (hx : x < s.width) (hy : y < s.height) :
      Completes s (.setPixelIndex x y k) (s.pixelWritten x y k.toNat)
  | dirtyReset (hs : s.engState = .ready) : Completes s .resetDirty ((s.withDirty .empty).responded .ok 0)

/-- On an INDEXED buffer `Store` is the pack algorithm (42_pixel_write.md R151). -/
theorem stored_of_indexed {s : State} (hv : s.cfgVariant = .indexed) (p : Nat) (k : Byte) :
    stored s p k.toNat = pack s.storage s.bpp.toNat p k := by
  simp [stored, hv, storeCell]

/-! ## Each shared check keeps to these ways if its body does -/

section
variable {s t : State} {i : Instr}

theorem completes_of_respond {v : Word} (h : respond v s = .next t) : Completes s i t :=
  respond_next h ▸ .answered i v

theorem completes_of_inUninit {body : Result} (h : inUninit s body = .next t)
    (hbody : s.engState = .uninit → body = .next t → Completes s i t) : Completes s i t := by
  obtain ⟨-, rfl⟩ | ⟨-, rfl⟩ | ⟨hs, hb⟩ := inUninit_next h
  · exact .raised i _ (by decide)
  · exact .raised i _ (by decide)
  · exact hbody hs hb

theorem completes_of_inReady {body : Result} (h : inReady s body = .next t)
    (hbody : s.engState = .ready → body = .next t → Completes s i t) : Completes s i t := by
  obtain ⟨-, rfl⟩ | ⟨-, rfl⟩ | ⟨hs, hb⟩ := inReady_next h
  · exact .raised i _ (by decide)
  · exact .raised i _ (by decide)
  · exact hbody hs hb

theorem completes_of_inIndexed {body : Result} (h : inIndexed s body = .next t)
    (hbody : s.cfgVariant = .indexed → body = .next t → Completes s i t) : Completes s i t := by
  obtain ⟨-, rfl⟩ | ⟨hv, hb⟩ := inIndexed_next h
  · exact .raised i _ (by decide)
  · exact hbody hv hb

theorem completes_of_atPixel {x y : Half} {body : Nat → Result} (h : atPixel s x y body = .next t)
    (hbody : x < s.width → y < s.height → body (slotOf s x y) = .next t → Completes s i t) : Completes s i t := by
  obtain ⟨-, rfl⟩ | ⟨hx, hy, -, hb⟩ := atPixel_next h
  · exact .raised i _ (by decide)
  · exact hbody hx hy hb

theorem completes_of_atPosition {pos : Word} {body : Nat → Result} (h : atPosition s pos body = .next t)
    (hbody : body pos.toNat = .next t → Completes s i t) : Completes s i t := by
  obtain ⟨-, rfl⟩ | ⟨-, -, hb⟩ := atPosition_next h
  · exact .raised i _ (by decide)
  · exact hbody hb

end

/-! ## The commands with checks of their own -/

section
variable {s t : State}

theorem execCfgSet_next {var : BitVec 2} {rba : Bool} (h : execCfgSet var rba s = .next t) :
    Completes s (.cfgSet var rba) t := by
  refine completes_of_inUninit h fun hs hb => ?_
  split at hb
  · exact raiseStatus_next hb ▸ .raised _ _ (by decide)
  · exact respond_next hb ▸ .configured var rba _ hs

theorem execPalSize_next {n : BitVec 9} (h : execPalSize n s = .next t) : Completes s (.palSize n) t := by
  refine completes_of_inUninit h fun hs hb => ?_
  split at hb
  · exact raiseStatus_next hb ▸ .raised _ _ (by decide)
  · next hn => exact respond_next hb ▸ .paletteSized n hs (by omega) (by omega)

theorem execInit_next {w h : Half} (hn : execInit w h s = .next t) : Completes s (.init w h) t := by
  refine completes_of_inUninit hn fun hs hb => ?_
  split_ifs at hb with hdim hpal
  · exact raiseStatus_next hb ▸ .raised _ _ (by decide)
  · exact raiseStatus_next hb ▸ .raised _ _ (by decide)
  · obtain ⟨hw, hh⟩ := not_or.mp hdim
    obtain ⟨-, rfl⟩ | ⟨hcap, rfl⟩ := allocate_next hb
    · exact .allocFailed w h hs
    · exact .allocated w h hs hw hh (fun hv h0 => hpal ⟨hv, h0⟩) hcap

theorem execSetPixelIndex_next {x y : Half} {k : Byte} (h : execSetPixelIndex x y k s = .next t) :
    Completes s (.setPixelIndex x y k) t :=
  completes_of_inReady h fun hs h => completes_of_inIndexed h fun hv h => completes_of_atPixel h fun hx hy h => by
    rw [← stored_of_indexed hv] at h
    exact respond_next h ▸ .indexSet x y k hs hx hy

end

/-- A command that answers a next state completes in one of the ways of `Completes`. -/
theorem exec_next {i : Instr} {s t : State} (h : exec i s = .next t) : Completes s i t := by
  cases i with
  | nop | palRead | bufSize | bufLength | pixelBits | dirtyLo | dirtyHi | statusRead | cvt565 | cvt666 | cvt332 | cvt233
  | cvt332To565 | cvt565ToRgb | cvt666ToRgb => exact completes_of_respond h
  | cfgSet => exact execCfgSet_next h
  | palSize => exact execPalSize_next h
  | palWrite slot c => exact completes_of_inUninit h fun hs h => respond_next h ▸ .paletteWritten slot c hs
  | init => exact execInit_next h
  | fill c => exact completes_of_inReady h fun hs h => respond_next (withEveryCell_next h).1 ▸ .filled c hs
  | setPixel x y c =>
    exact completes_of_inReady h fun hs h => completes_of_atPixel h fun hx hy h =>
      respond_next h ▸ .pixelSet x y c hs hx hy
  | setPixelIndex => exact execSetPixelIndex_next h
  | resetDirty => exact completes_of_inReady h fun hs h => respond_next h ▸ .dirtyReset hs
  | get565Xy | get666Xy =>
    exact completes_of_inReady h fun _ h => completes_of_atPixel h fun _ _ h => completes_of_respond h
  | get565Pos | get666Pos =>
    exact completes_of_inReady h fun _ h => completes_of_atPosition h completes_of_respond
  | getIndexXy =>
    exact completes_of_inReady h fun _ h => completes_of_inIndexed h fun _ h => completes_of_atPixel h fun _ _ h =>
      completes_of_respond h
  | getIndexPos =>
    exact completes_of_inReady h fun _ h => completes_of_inIndexed h fun _ h =>
      completes_of_atPosition h completes_of_respond

/-! ## What commands and steps leave unchanged -/

/-- A command keeps ENG_STATE, unless it is INIT in UNINIT. -/
theorem Completes.engState_eq_or_init {i : Instr} {s t : State} (h : Completes s i t) :
    t.engState = s.engState ∨ (s.engState = .uninit ∧ ∃ w h, i = .init w h) := by
  cases h with
  | allocFailed w h hs | allocated w h hs => exact .inr ⟨hs, w, h, rfl⟩
  | answered | raised | configured | paletteSized | paletteWritten | filled | pixelSet | indexSet | dirtyReset =>
    exact .inl rfl

/-- A step that takes no reset keeps ENG_STATE, unless it runs INIT in UNINIT. -/
theorem step_engState_eq_or_init {s t : State} (h : step s = .next t) (hr : ¬ resetNext s) :
    t.engState = s.engState ∨ (s.engState = .uninit ∧
      ∃ data rest w h, s.inbox = .command data :: rest ∧ decode data = .ok (.init w h)) := by
  obtain ⟨-, rfl⟩ | ⟨pal, bytes, rest, hi, -⟩ | ⟨data, rest, e, -, -, rfl⟩ | ⟨data, rest, i, hi, hd, he⟩ := step_next h
  · exact .inl rfl
  · exact absurd ⟨pal, bytes, rest, hi⟩ hr
  · exact .inl rfl
  · obtain hkeep | ⟨hs, w, h, rfl⟩ := (exec_next he).engState_eq_or_init
    · exact .inl hkeep
    · exact .inr ⟨hs, data, rest, w, h, hi, hd⟩

/-- A step that takes a reset leaves the power-on registers, with the palette and the storage of the draw. -/
theorem step_of_reset {s : State} {pal : Palette} {bytes : List Byte} {rest : List HostMove}
    (hi : s.inbox = .reset pal bytes :: rest) :
    step s = .next ((State.powerOn s.cap pal (memOfBytesFrom 0 (bytes.take s.cap.val))).taken rest) := by
  simp only [step, hi, hostReset]

/-- Settles O21: only INIT and reset change ENG_STATE. -/
theorem engineStateMoves : Obligations.EngineStateMoves := by
  refine ⟨fun s t h hr => ?_, fun s t h ⟨pal, bytes, rest, hi⟩ => ?_, rfl, rfl, rfl, fun e => ?_⟩
  · obtain hkeep | ⟨hs, hinit⟩ := step_engState_eq_or_init h hr
    · exact ⟨fun hs hne => absurd (hkeep.trans hs) hne, hkeep.trans, hkeep.trans⟩
    · exact ⟨fun _ _ => hinit, fun hs' => by simp [hs] at hs', fun hs' => by simp [hs] at hs'⟩
  · rw [step_of_reset hi] at h
    cases h
    rfl
  · cases e <;> decide

/-- Settles O22: the commands that write the configuration, the palette or the geometry complete in UNINIT only. -/
theorem configurationIsFrozenOutsideUninit : Obligations.ConfigurationIsFrozenOutsideUninit := by
  intro i s t hne h
  cases exec_next h with
  | configured _ _ _ hs | paletteSized _ hs | paletteWritten _ _ hs | allocFailed _ _ hs | allocated _ _ hs =>
    exact absurd hs hne
  | answered | raised | filled | pixelSet | indexSet | dirtyReset =>
    exact ⟨rfl, rfl, rfl, rfl, rfl, rfl, rfl, rfl, rfl, rfl, rfl, rfl⟩

/-- Settles O11: byte `a` of the draw is its entry `a`, and no entry below CAP is cut off. -/
theorem resetDrawsPaletteAndStorage : Obligations.ResetDrawsPaletteAndStorage := by
  intro s pal bytes rest hi
  refine ⟨_, step_of_reset hi, rfl, rfl, rfl, fun a ha => ?_⟩
  have hread := memRead_memOfBytesFrom 0 (bytes.take s.cap.val) a
  rwa [Nat.zero_add, List.getElem?_take_of_lt ha] at hread

end Sys2Proof.Machine
end

section
/-! Every step keeps the invariant: each register update keeps it under the condition its command has checked, and
`exec_next` says which updates a command makes. -/

namespace Sys2Proof.Machine

open Sys2Proof.Safety

/-! ## Storage below CAP -/

theorem memBelow_bitWrite {m : Memory} {n g : Nat} (h : memBelow m n = true) (hg : g / 8 < n) (b : Bool) :
    memBelow (bitWrite m g b) n = true := memBelow_memWrite h hg _

theorem memBelow_pixSetBits {m : Memory} {n base k : Nat} (h : memBelow m n = true) (v : Nat)
    (hend : (base + k + 7) / 8 ≤ n) : memBelow (pixSetBits m base v k) n = true := by
  induction k with
  | zero => exact h
  | succ k ih => exact memBelow_bitWrite (ih (by omega)) (by omega) _

theorem memBelow_mergeByte {m : Memory} {n a : Nat} (h : memBelow m n = true) (ha : a < n) (mask bits : Byte) :
    memBelow (mergeByte m a mask bits) n = true := memBelow_memWrite h ha _

theorem memBelow_pack {m : Memory} {n w p : Nat} (h : memBelow m n = true) (k : Byte)
    (hend : cellEnd .indexed w p ≤ n) : memBelow (pack m w p k) n = true := by
  dsimp only [cellEnd, pack] at hend ⊢
  split at hend
  · next htwo =>
    have hfirst : p * w / 8 < n := by omega
    rw [if_neg (Nat.not_le.mpr htwo)]
    exact memBelow_mergeByte (memBelow_mergeByte h hfirst _ _) hend _ _
  · next hone =>
    rw [if_pos (Nat.not_lt.mp hone)]
    exact memBelow_mergeByte h hend _ _

/-- A store to a cell that ends at or below `n` lists no address from `n` on. -/
theorem memBelow_storeCell {variant : Variant} {m : Memory} {n w p : Nat} (h : memBelow m n = true) (v : Nat)
    (hend : cellEnd variant w p ≤ n) : memBelow (storeCell variant m w p v) n = true := by
  cases variant with
  | v565 | v666 => exact memBelow_pixSetBits h v hend
  | indexed => exact memBelow_pack h _ hend

theorem memBelow_fillCells {variant : Variant} {m : Memory} {cap w k : Nat} (h : memBelow m cap = true) (v : Nat)
    (hend : ∀ p < k, cellEnd variant w p ≤ cap) : memBelow (fillCells variant m w v k) cap = true := by
  induction k with
  | zero => exact h
  | succ k ih => exact memBelow_storeCell (ih fun p hp => hend p (by omega)) v (hend k (by omega))

/-! ## The smaller and the larger coordinate -/

theorem toNat_minHalf (a b : Half) : (minHalf a b).toNat = min a.toNat b.toNat := by
  unfold minHalf
  split_ifs with h <;> rw [BitVec.le_def] at h <;> omega

theorem toNat_maxHalf (a b : Half) : (maxHalf a b).toNat = max a.toNat b.toNat := by
  unfold maxHalf
  split_ifs with h <;> rw [BitVec.le_def] at h <;> omega

/-! ## The dirty rectangle -/

/-- The dirty rectangle is not empty and lies in the frame of the given size (10_state.md R30). -/
def DirtyRect.inside (d : DirtyRect) (width height : Half) : Prop :=
  d.xl ≤ d.xh ∧ d.xh < width ∧ d.yl ≤ d.yh ∧ d.yh < height

/-- The inference of 42_pixel_write.md R152: min with 0xFFFF and max with 0 give the coordinate itself. -/
theorem widenRect_empty (x y : Half) : widenRect .empty x y = ⟨x, y, x, y⟩ := by
  have hmin : ∀ a : Half, minHalf 0xFFFF a = a := fun a => BitVec.eq_of_toNat_eq (by
    rw [toNat_minHalf]
    exact Nat.min_eq_right (Nat.le_of_lt_succ a.isLt))
  have hmax : ∀ a : Half, maxHalf 0 a = a := fun a => BitVec.eq_of_toNat_eq (by
    rw [toNat_maxHalf]
    exact Nat.max_eq_right (Nat.zero_le _))
  simp only [widenRect, DirtyRect.empty, hmin, hmax]

theorem widenRect_inside {d : DirtyRect} {width height x y : Half} (hd : d = .empty ∨ d.inside width height)
    (hx : x < width) (hy : y < height) : (widenRect d x y).inside width height := by
  obtain rfl | ⟨hxl, hxw, hyl, hyh⟩ := hd
  · rw [widenRect_empty]
    exact ⟨BitVec.le_refl x, hx, BitVec.le_refl y, hy⟩
  · simp only [DirtyRect.inside, widenRect, BitVec.le_def, BitVec.lt_def, toNat_minHalf, toNat_maxHalf] at *
    omega

theorem fullFrame_inside {width height : Half} (hw : width ≠ 0) (hh : height ≠ 0) :
    (fullFrame width height).inside width height := by
  dsimp only [DirtyRect.inside, fullFrame]
  bv_omega

/-! ## The sizes that INIT computes -/

theorem bppOf_le {variant : Variant} {psize : BitVec 9} (h : psize.toNat ≤ 256) : bppOf variant psize ≤ 32 := by
  cases variant with
  | v565 | v666 => simp [bppOf]
  | indexed => exact (bppOf_indexed_le_eight h).trans (by decide)

/-- BUF_LEN holds WIDTH * HEIGHT exactly (10_state.md R28). -/
theorem width_mul_height_lt (w h : Half) : w.toNat * h.toNat < 2 ^ 32 :=
  Nat.mul_lt_mul'' (c := 2 ^ 16) (d := 2 ^ 16) w.isLt h.isLt

/-! ## Register updates -/

theorem stickyWith_reserved {sticky : BitVec 16} {e : Status} (h : sticky &&& 0xFE01 = 0) (he : e ≠ .ok) :
    stickyWith sticky e &&& 0xFE01 = 0 := by
  have hbit : (1#16 <<< (statusCode e).toNat) &&& 0xFE01 = 0 := by
    cases e with
    | ok => exact absurd rfl he
    | errIllegal | errState | errUnusable | errAlloc | errConfig | errArg | errBounds | errVariant => decide
  rw [stickyWith, BitVec.and_or_distrib_right, h, hbit]
  rfl

section
variable {s : State} (hinv : Inv s)
include hinv

theorem inv_taken (rest : List HostMove) : Inv (s.taken rest) :=
  { hinv with errorResultZero := by simp }

theorem inv_responded (v : Word) : Inv (s.responded .ok v) :=
  { hinv with errorResultZero := by simp }

theorem inv_raised {e : Status} (he : e ≠ .ok) : Inv (s.raised e) :=
  { hinv with
    stickyReserved := stickyWith_reserved hinv.stickyReserved he
    errorResultZero := by simp }

theorem inv_withPalSlot (slot : Byte) (c : Color) : Inv (s.withPalSlot slot c) := { hinv with }

theorem inv_withStorage {m : Memory} (hwf : Memory.wf m = true) (hbelow : memBelow m s.cap.val = true) :
    Inv (s.withStorage m) :=
  { hinv with
    storageCanonical := hwf
    storageBelowCap := hbelow }

theorem inv_configured (hs : s.engState = .uninit) (v : Variant) (rba : Bool) : Inv (s.configured v rba) :=
  { hinv with buffer := by simp [hs] }

theorem inv_withPalSize (hs : s.engState = .uninit) {n : BitVec 9} (hn : n.toNat ≤ 256) : Inv (s.withPalSize n) :=
  { hinv with
    palSizeLegal := hn
    buffer := by simp [hs] }

theorem inv_madeUnusable (hs : s.engState = .uninit) : Inv s.madeUnusable :=
  { hinv with
    noBuffer := fun _ => hinv.noBuffer (by simp [hs])
    buffer := by simp }

theorem inv_withDirty (hs : s.engState = .ready) {d : DirtyRect} (hd : d = .empty ∨ d.inside s.width s.height) :
    Inv (s.withDirty d) :=
  { hinv with
    dirtyLegal := hd
    noBuffer := by simp [hs] }

/-- The registers that INIT writes hold the sizes it computes: none is cut off (10_state.md R26 to R28). -/
theorem inv_allocated {w h : Half} (hw : w ≠ 0) (hh : h ≠ 0) (hpal : s.cfgVariant = .indexed → s.palSize ≠ 0)
    (hcap : byteCount w h (bppOf s.cfgVariant s.palSize) ≤ s.cap.val) :
    Inv (s.allocated w h (bppOf s.cfgVariant s.palSize) (byteCount w h (bppOf s.cfgVariant s.palSize))) := by
  have hbpp : (BitVec.ofNat 6 (bppOf s.cfgVariant s.palSize)).toNat = bppOf s.cfgVariant s.palSize :=
    Nat.mod_eq_of_lt ((bppOf_le hinv.palSizeLegal).trans_lt (by decide))
  have hlen : (BitVec.ofNat 32 (w.toNat * h.toNat)).toNat = w.toNat * h.toNat :=
    Nat.mod_eq_of_lt (width_mul_height_lt w h)
  have hsize : (BitVec.ofNat 32 (byteCount w h (bppOf s.cfgVariant s.palSize))).toNat =
      byteCount w h (bppOf s.cfgVariant s.palSize) :=
    Nat.mod_eq_of_lt (hcap.trans_lt s.cap.isLt)
  have hbytes : (BitVec.ofNat 32 (byteCount w h (bppOf s.cfgVariant s.palSize))).toNat =
      (w.toNat * h.toNat * (BitVec.ofNat 6 (bppOf s.cfgVariant s.palSize)).toNat + 7) / 8 := by
    rw [hsize, hbpp]
    rfl
  exact { hinv with
    dirtyLegal := .inl rfl
    noBuffer := by simp
    buffer := fun _ => ⟨hw, hh, hbpp, hpal, hlen, hbytes, hsize.trans_le hcap⟩ }

/-! ## Pixel writes -/

/-- A pixel write to a slot of the buffer stays below CAP. -/
theorem memBelow_stored (hs : s.engState = .ready) {p : Nat} (hp : p < s.bufLen.toNat) (v : Nat) :
    memBelow (stored s p v) s.cap.val = true :=
  memBelow_storeCell hinv.storageBelowCap v (of_decide_eq_true (cellFits_of_slot_lt_bufLen hinv hs hp))

theorem memBelow_filled (hs : s.engState = .ready) (v : Nat) : memBelow (filled s v) s.cap.val = true :=
  memBelow_fillCells hinv.storageBelowCap v fun _ hp => of_decide_eq_true (cellFits_of_slot_lt_bufLen hinv hs hp)

theorem slotOf_lt_bufLen (hs : s.engState = .ready) {x y : Half} (hx : x < s.width) (hy : y < s.height) :
    slotOf s x y < s.bufLen.toNat := by
  obtain ⟨-, -, -, -, hlen, -, -⟩ := hinv.buffer hs
  rw [hlen]
  exact slotOf_lt_of_inFrame (by simp [inFrame, hx, hy])

theorem inv_pixelWritten (hs : s.engState = .ready) {x y : Half} (hx : x < s.width) (hy : y < s.height) (v : Nat) :
    Inv (s.pixelWritten x y v) := by
  have hbelow := memBelow_stored hinv hs (slotOf_lt_bufLen hinv hs hx hy) v
  have hstored := inv_withStorage hinv (storeCell_wf hinv.storageCanonical _ _ _ _) hbelow
  exact inv_responded (inv_withDirty hstored hs (.inr (widenRect_inside hinv.dirtyLegal hx hy))) 0

theorem inv_filled (hs : s.engState = .ready) (v : Nat) :
    Inv ((s.withStorage (filled s v)).withDirty (fullFrame s.width s.height)) := by
  obtain ⟨hw, hh, -⟩ := hinv.buffer hs
  have hstored := inv_withStorage hinv (fillCells_wf hinv.storageCanonical _ _ _ _) (memBelow_filled hinv hs v)
  exact inv_withDirty hstored hs (.inr (fullFrame_inside hw hh))

end

/-! ## Commands, resets and steps -/

theorem inv_powerOn {cap : Fin 4294967296} (pal : Palette) {m : Memory} (hcap : 1 ≤ cap.val)
    (hwf : Memory.wf m = true) (hbelow : memBelow m cap.val = true) : Inv (State.powerOn cap pal m) where
  storageCanonical := hwf
  storageBelowCap := hbelow
  capPositive := hcap
  palSizeLegal := Nat.zero_le _
  stickyReserved := by simp
  dirtyLegal := .inl rfl
  noBuffer := by simp
  buffer := by simp
  errorResultZero := by simp

/-- Settles O12: `State.reset` is one of the power-on states, with no storage byte listed. -/
theorem resetMeetsInv : Obligations.ResetMeetsInv :=
  ⟨inv_powerOn _ (Nat.succ_pos _) rfl rfl, fun _ pal _ hcap hwf hbelow => inv_powerOn pal hcap hwf hbelow⟩

/-- The storage a reset draws lies below CAP. -/
theorem memBelow_resetDraw (bytes : List Byte) (cap : Nat) :
    memBelow (memOfBytesFrom 0 (bytes.take cap)) cap = true := by
  have hbelow := memBelow_memOfBytesFrom 0 (bytes.take cap)
  simp only [memBelow, List.all_eq_true, decide_eq_true_eq, List.length_take] at hbelow ⊢
  intro cell hcell
  have := hbelow cell hcell
  omega

/-- Every command keeps the invariant. -/
theorem Completes.inv {i : Instr} {s t : State} (h : Completes s i t) (hinv : Inv s) : Inv t := by
  cases h with
  | answered i v => exact inv_responded hinv v
  | raised i e he => exact inv_raised hinv he
  | configured var rba v hs => exact inv_responded (inv_configured hinv hs v rba) 0
  | paletteSized n hs hpos hle => exact inv_responded (inv_withPalSize hinv hs hle) 0
  | paletteWritten slot c hs => exact inv_responded (inv_withPalSlot hinv slot c) 0
  | allocFailed w h hs => exact inv_raised (inv_madeUnusable hinv hs) (by decide)
  | allocated w h hs hw hh hpal hcap => exact inv_responded (inv_allocated hinv hw hh hpal hcap) 0
  | filled c hs => exact inv_responded (inv_filled hinv hs _) 0
  | pixelSet x y c hs hx hy => exact inv_pixelWritten hinv hs hx hy _
  | indexSet x y k hs hx hy => exact inv_pixelWritten hinv hs hx hy _
  | dirtyReset hs => exact inv_responded (inv_withDirty hinv hs (.inl rfl)) 0

/-- Settles O13, along what a step can do. -/
theorem stepKeepsInv : Obligations.StepKeepsInv := by
  intro s t hinv h
  obtain ⟨-, rfl⟩ | ⟨pal, bytes, rest, -, rfl⟩ | ⟨data, rest, e, -, -, rfl⟩ | ⟨data, rest, i, -, -, he⟩ := step_next h
  · exact inv_taken hinv []
  · exact inv_taken (inv_powerOn pal hinv.capPositive (memOfBytes_wf _) (memBelow_resetDraw bytes _)) rest
  · exact inv_raised (inv_taken hinv rest) (by decide)
  · exact (exec_next he).inv (inv_taken hinv rest)

end Sys2Proof.Machine
end

section
/-! The rectangle that a pixel write leaves (10_state.md R29, R30), and what the status view shows (R34). -/

namespace Sys2Proof.Machine

open Sys2Proof.Safety

/-! ## Pixel writes in the frame -/

section
variable {s : State} (hinv : Inv s) (hs : s.engState = .ready)
include hinv hs

theorem exec_setPixel_of_inv {x y : Half} (hx : x < s.width) (hy : y < s.height) (c : Color) :
    exec (.setPixel x y c) s = .next (s.pixelWritten x y (storeVal s c)) := by
  have hframe : inFrame s x y = true := by simp [inFrame, hx, hy]
  change inReady s (atPixel s x y _) = _
  rw [inReady, hs, atPixel_of_inv hinv hs, if_pos hframe]
  rfl

theorem exec_setPixelIndex_of_inv (hv : s.cfgVariant = .indexed) {x y : Half} (hx : x < s.width) (hy : y < s.height)
    (k : Byte) : exec (.setPixelIndex x y k) s = .next (s.pixelWritten x y k.toNat) := by
  have hframe : inFrame s x y = true := by simp [inFrame, hx, hy]
  change inReady s (inIndexed s (atPixel s x y _)) = _
  rw [inReady, hs, inIndexed, hv, atPixel_of_inv hinv hs, if_pos hframe, State.pixelWritten, stored_of_indexed hv]
  rfl

/-- A pixel write in the frame, by color or by index, widens the dirty rectangle to its pixel. -/
theorem dirty_of_pixelWrite {t : State} {x y : Half} {i : Instr} (hx : x < s.width) (hy : y < s.height)
    (hi : (∃ c, i = .setPixel x y c) ∨ (∃ k, i = .setPixelIndex x y k ∧ s.cfgVariant = .indexed))
    (h : exec i s = .next t) : t.dirty = widenRect s.dirty x y := by
  obtain ⟨c, rfl⟩ | ⟨k, rfl, hv⟩ := hi
  · rw [exec_setPixel_of_inv hinv hs hx hy] at h
    cases h
    rfl
  · rw [exec_setPixelIndex_of_inv hinv hs hv hx hy] at h
    cases h
    rfl

end

/-! ## The least cover -/

theorem covers_widenRect {d : DirtyRect} {x y u v : Half} :
    covers (widenRect d x y) u v ↔
      (d.xl ≤ u ∨ x ≤ u) ∧ (u ≤ d.xh ∨ u ≤ x) ∧ (d.yl ≤ v ∨ y ≤ v) ∧ (v ≤ d.yh ∨ v ≤ y) := by
  simp only [covers, widenRect, BitVec.le_def, toNat_minHalf, toNat_maxHalf, min_le_iff, le_max_iff]

theorem covers_widenRect_self (d : DirtyRect) (x y : Half) : covers (widenRect d x y) x y :=
  covers_widenRect.mpr
    ⟨.inr (BitVec.le_refl x), .inr (BitVec.le_refl x), .inr (BitVec.le_refl y), .inr (BitVec.le_refl y)⟩

theorem covers_widenRect_of_covers {d : DirtyRect} (x y : Half) {u v : Half} (h : covers d u v) :
    covers (widenRect d x y) u v := by
  obtain ⟨hxl, hxh, hyl, hyh⟩ := h
  exact covers_widenRect.mpr ⟨.inl hxl, .inl hxh, .inl hyl, .inl hyh⟩

/-- A rectangle that covers two opposite corners of the widened one, (x, y) and each of `d`'s, covers all of it. -/
theorem covers_of_covers_widenRect {d e : DirtyRect} {x y : Half}
    (hd : d = .empty ∨ (d.xl ≤ d.xh ∧ d.yl ≤ d.yh)) (hpixel : covers e x y) (hold : ∀ u v, covers d u v → covers e u v)
    {u v : Half} (h : covers (widenRect d x y) u v) : covers e u v := by
  obtain rfl | ⟨hx, hy⟩ := hd
  · obtain ⟨hxu, hux, hyv, hvy⟩ : covers ⟨x, y, x, y⟩ u v := widenRect_empty x y ▸ h
    rwa [BitVec.le_antisymm hux hxu, BitVec.le_antisymm hvy hyv]
  · obtain ⟨hxl, -, hyl, -⟩ := hold d.xl d.yl ⟨BitVec.le_refl _, hx, BitVec.le_refl _, hy⟩
    obtain ⟨-, hxh, -, hyh⟩ := hold d.xh d.yh ⟨hx, BitVec.le_refl _, hy, BitVec.le_refl _⟩
    obtain ⟨hpxl, hpxh, hpyl, hpyh⟩ := hpixel
    obtain ⟨hul, huh, hvl, hvh⟩ := covers_widenRect.mp h
    exact ⟨hul.elim (BitVec.le_trans hxl) (BitVec.le_trans hpxl),
      huh.elim (BitVec.le_trans · hxh) (BitVec.le_trans · hpxh),
      hvl.elim (BitVec.le_trans hyl) (BitVec.le_trans hpyl),
      hvh.elim (BitVec.le_trans · hyh) (BitVec.le_trans · hpyh)⟩

/-- Settles O42: a rectangle of the invariant that is not empty covers its own corners. -/
theorem dirtyRectangleIsTheLeastCover : Obligations.DirtyRectangleIsTheLeastCover := by
  intro s t x y i hinv hs hx hy hi h
  have hlegal : s.dirty = .empty ∨ (s.dirty.xl ≤ s.dirty.xh ∧ s.dirty.yl ≤ s.dirty.yh) :=
    hinv.dirtyLegal.imp_right fun ⟨hxle, _, hyle, _⟩ => ⟨hxle, hyle⟩
  rw [dirty_of_pixelWrite hinv hs hx hy hi h]
  refine ⟨covers_widenRect_self _ x y, fun u v => covers_widenRect_of_covers x y,
    fun d hpixel hold u v => covers_of_covers_widenRect hlegal hpixel hold, fun hempty => ?_⟩
  rw [hempty]
  exact widenRect_empty x y

/-! ## The status view -/

theorem toNat_append_eq_add {m n : Nat} (a : BitVec m) (b : BitVec n) : (a ++ b).toNat = a.toNat * 2 ^ n + b.toNat := by
  rw [BitVec.toNat_append, ← Nat.shiftLeft_add_eq_or_of_lt b.isLt, Nat.shiftLeft_eq]

/-- The status view as a sum of its fields at their places (10_state.md R34). -/
theorem toNat_statusView (s : State) :
    (statusView s).toNat =
      s.errSticky.toNat * 2 ^ 16 + s.bpp.toNat * 2 ^ 8 + (dirtyEmpty s.dirty).toNat * 2 ^ 5 + s.cfgRba.toNat * 2 ^ 4 +
        (variantBits s.cfgVariant).toNat * 2 ^ 2 + (engStateBits s.engState).toNat := by
  unfold statusView
  simp only [toNat_append_eq_add, BitVec.toNat_ofBool, BitVec.toNat_ofNat]
  omega

theorem toNat_dirtyEmpty (d : DirtyRect) : (dirtyEmpty d).toNat = if d.xh.toNat < d.xl.toNat then 1 else 0 := by
  simp only [dirtyEmpty, Bool.toNat, Bool.cond_decide, BitVec.lt_def]

/-- Settles O51: each field of the sum is below the weight of the next. -/
theorem statusReadShowsEveryField : Obligations.StatusReadShowsEveryField := by
  intro s
  have hview := toNat_statusView s
  have hbpp := s.bpp.isLt
  have hempty := (dirtyEmpty s.dirty).toNat_lt
  have hrba := s.cfgRba.toNat_lt
  have hvariant := (variantBits s.cfgVariant).isLt
  have heng := (engStateBits s.engState).isLt
  refine ⟨statusView s, rfl, ?engState, ?cfgVariant, ?cfgRba, ?dirtyEmpty, ?_, ?_, ?_, ?_⟩
  case engState =>
    calc (statusView s).toNat % 4 = (engStateBits s.engState).toNat := by omega
      _ = _ := by cases s.engState <;> rfl
  case cfgVariant =>
    calc (statusView s).toNat / 2 ^ 2 % 4 = (variantBits s.cfgVariant).toNat := by omega
      _ = _ := by cases s.cfgVariant <;> rfl
  case cfgRba => omega
  case dirtyEmpty =>
    rw [← toNat_dirtyEmpty]
    omega
  all_goals omega

/-- The status view right after reset: DIRTY_EMPTY and zeros (10_state.md R35). -/
theorem statusView_powerOn (cap : Fin 4294967296) (pal : Palette) (m : Memory) :
    statusView (State.powerOn cap pal m) = 0x00000020 := by
  have hempty : dirtyEmpty .empty = true := by decide
  refine BitVec.eq_of_toNat_eq ?_
  simp [toNat_statusView, hempty, variantBits, engStateBits]

/-- Settles O52: the four queries show their registers in every state. -/
theorem queriesAfterReset : Obligations.QueriesAfterReset := by
  intro cap pal m
  refine ⟨?_, rfl, rfl, rfl⟩
  exact congrArg (respond · (State.powerOn cap pal m)) (statusView_powerOn cap pal m)

end Sys2Proof.Machine
end

section
/-! How a step reaches a command, where a command can stop, and which commands write storage. -/

namespace Sys2Proof.Machine

open Sys2Proof.Safety

/-! ## The step of a command -/

theorem step_of_command {s : State} {data : Command} {rest : List HostMove} {i : Instr}
    (hi : s.inbox = .command data :: rest) (hd : decode data = .ok i) : step s = exec i (s.taken rest) := by
  simp only [step, hi, hd]

/-- Settles O7: taking the move is what `State.taken` does. -/
theorem stepRunsTheDecodedCommand : Obligations.StepRunsTheDecodedCommand :=
  fun _ _ _ _ hi hd => step_of_command hi hd

/-! ## Where a command can stop

`StopsOnlyOutside s r`: the outcome `r` in state `s` is no refusal, and a fault only of a cell that reaches CAP. Each shared
check keeps this if its body does; an answer (`respond`, `raiseStatus`) is a next state, for which it is `trivial`. -/

/-- The outcome is a next state or the fault of a cell that would reach CAP (20_memory.md R50). -/
def StopsOnlyOutside (s : State) : Result → Prop
  | .next _ => True
  | .fault f => ∃ p, f = .outsideStorage p ∧ s.cap.val < cellEnd s.cfgVariant s.bpp.toNat p
  | .refused _ => False

section
variable {s : State}

theorem stopsOnlyOutside_inUninit {body : Result} (h : StopsOnlyOutside s body) :
    StopsOnlyOutside s (inUninit s body) := by
  unfold inUninit
  split
  · trivial
  · trivial
  · exact h

theorem stopsOnlyOutside_inReady {body : Result} (h : StopsOnlyOutside s body) :
    StopsOnlyOutside s (inReady s body) := by
  unfold inReady
  split
  · trivial
  · trivial
  · exact h

theorem stopsOnlyOutside_inIndexed {body : Result} (h : StopsOnlyOutside s body) :
    StopsOnlyOutside s (inIndexed s body) := by
  unfold inIndexed
  split
  · exact h
  · trivial
  · trivial

/-- The one test that can stop a command. -/
theorem stopsOnlyOutside_withCell (p : Nat) {body : Result} (h : StopsOnlyOutside s body) :
    StopsOnlyOutside s (withCell s p body) := by
  unfold withCell
  split
  · exact h
  · next hfit => exact ⟨p, rfl, by simpa [cellFits] using hfit⟩

theorem stopsOnlyOutside_atPixel (x y : Half) {body : Nat → Result} (h : ∀ p, StopsOnlyOutside s (body p)) :
    StopsOnlyOutside s (atPixel s x y body) := by
  unfold atPixel
  split
  · exact stopsOnlyOutside_withCell _ (h _)
  · trivial

theorem stopsOnlyOutside_atPosition (pos : Word) {body : Nat → Result} (h : ∀ p, StopsOnlyOutside s (body p)) :
    StopsOnlyOutside s (atPosition s pos body) := by
  unfold atPosition
  split
  · exact stopsOnlyOutside_withCell _ (h _)
  · trivial

theorem stopsOnlyOutside_withEveryCell {body : Result} (h : StopsOnlyOutside s body) :
    StopsOnlyOutside s (withEveryCell s body) := by
  unfold withEveryCell
  split
  · exact h
  · exact stopsOnlyOutside_withCell _ h

theorem stopsOnlyOutside_execCfgSet (var : BitVec 2) (rba : Bool) : StopsOnlyOutside s (execCfgSet var rba s) := by
  refine stopsOnlyOutside_inUninit ?_
  cases variantOfBits var with
  | none | some => trivial

theorem stopsOnlyOutside_execPalSize (n : BitVec 9) : StopsOnlyOutside s (execPalSize n s) := by
  refine stopsOnlyOutside_inUninit ?_
  split <;> trivial

theorem stopsOnlyOutside_allocate (w h : Half) : StopsOnlyOutside s (allocate w h s) := by
  unfold allocate
  dsimp only
  split <;> trivial

theorem stopsOnlyOutside_execInit (w h : Half) : StopsOnlyOutside s (execInit w h s) := by
  refine stopsOnlyOutside_inUninit ?_
  split_ifs
  · trivial
  · trivial
  · exact stopsOnlyOutside_allocate w h

end

/-- Every command stops only where a cell would reach CAP. -/
theorem exec_stopsOnlyOutside (i : Instr) (s : State) : StopsOnlyOutside s (exec i s) := by
  cases i with
  | nop | palRead | bufSize | bufLength | pixelBits | dirtyLo | dirtyHi | statusRead | cvt565 | cvt666 | cvt332 | cvt233
  | cvt332To565 | cvt565ToRgb | cvt666ToRgb => trivial
  | cfgSet var rba => exact stopsOnlyOutside_execCfgSet var rba
  | palSize n => exact stopsOnlyOutside_execPalSize n
  | palWrite => exact stopsOnlyOutside_inUninit trivial
  | init w h => exact stopsOnlyOutside_execInit w h
  | resetDirty => exact stopsOnlyOutside_inReady trivial
  | fill => exact stopsOnlyOutside_inReady (stopsOnlyOutside_withEveryCell trivial)
  | setPixel x y | get565Xy x y | get666Xy x y =>
    exact stopsOnlyOutside_inReady (stopsOnlyOutside_atPixel x y fun _ => trivial)
  | get565Pos pos | get666Pos pos =>
    exact stopsOnlyOutside_inReady (stopsOnlyOutside_atPosition pos fun _ => trivial)
  | setPixelIndex x y | getIndexXy x y =>
    exact stopsOnlyOutside_inReady (stopsOnlyOutside_inIndexed (stopsOnlyOutside_atPixel x y fun _ => trivial))
  | getIndexPos pos =>
    exact stopsOnlyOutside_inReady (stopsOnlyOutside_inIndexed (stopsOnlyOutside_atPosition pos fun _ => trivial))

/-- Settles O15: the two clauses are `StopsOnlyOutside` at a refusal and at a fault. -/
theorem commandStopsOnlyOutsideStorage : Obligations.CommandStopsOnlyOutsideStorage := by
  intro i s
  have hstop := exec_stopsOnlyOutside i s
  refine ⟨fun r hr => ?_, fun f hf => ?_⟩
  · rwa [hr] at hstop
  · rwa [hf] at hstop

/-! ## Which commands write -/

/-- Settles O23: of the ways in which a command completes, three write storage and two more the dirty rectangle. -/
theorem onlyPixelWritesChangeStorage : Obligations.OnlyPixelWritesChangeStorage := by
  intro i s t h
  cases exec_next h with
  | filled _ hs | pixelSet _ _ _ hs | indexSet _ _ _ hs =>
    exact ⟨fun hne => absurd hs hne, fun hg => absurd rfl hg, fun hg => absurd rfl hg⟩
  | allocated w ht => exact ⟨fun _ => rfl, fun _ => rfl, fun _ _ hi => absurd rfl (hi w ht)⟩
  | dirtyReset => exact ⟨fun _ => rfl, fun _ => rfl, fun _ hi => absurd rfl hi⟩
  | answered | raised | configured | paletteSized | paletteWritten | allocFailed =>
    exact ⟨fun _ => rfl, fun _ => rfl, fun _ _ _ => rfl⟩

end Sys2Proof.Machine
end

section
/-! Cells as runs of storage bits (20_memory.md R51, R52): what a store does to every storage bit, for each of the pixel
primitives, and what a load then returns. -/

namespace Sys2Proof.Machine

open Sys2Proof.Safety

/-! ## Bits of bytes -/

/-- Bit `k` of a byte as a storage bit (20_memory.md R51). -/
theorem getLsbD_memRead (m : Memory) (a : Nat) {k : Nat} (hk : k < 8) :
    (memRead m a).getLsbD k = storageBit m (8 * a + k) := by
  rw [storageBit, show (8 * a + k) / 8 = a by omega, show (8 * a + k) % 8 = k by omega]

theorem getLsbD_shiftLeft_of_le {x : Byte} {o k : Nat} (hk : k < 8) (ho : o ≤ k) :
    (x <<< o).getLsbD k = x.getLsbD (k - o) := by
  simp only [BitVec.getLsbD_shiftLeft, hk, Nat.not_lt.mpr ho, decide_true, decide_false, Bool.not_false, Bool.true_and]

/-- One merge of the pack algorithm replaces the bits of its byte that the mask selects. -/
theorem storageBit_mergeByte {m : Memory} (h : Memory.wf m = true) (a : Nat) (mask bits : Byte) (g : Nat) :
    storageBit (mergeByte m a mask bits) g =
      if g / 8 = a ∧ mask.getLsbD (g % 8) = true then bits.getLsbD (g % 8) else storageBit m g := by
  have hlt : g % 8 < 8 := Nat.mod_lt _ (by decide)
  unfold storageBit
  rw [memRead_mergeByte h]
  by_cases hbyte : g / 8 = a
  · simp only [hbyte, true_and, if_true, BitVec.getLsbD_or, BitVec.getLsbD_and, BitVec.getLsbD_not, hlt, decide_true,
      Bool.true_and]
    cases mask.getLsbD (g % 8) with
    | true | false => simp
  · simp [hbyte]

/-! ## The general pixel primitives -/

/-- PixSet replaces the bits of its cell and no other (20_memory.md R55). -/
theorem storageBit_pixSet {m : Memory} (h : Memory.wf m = true) (w p v g : Nat) :
    storageBit (pixSet m w p v) g =
      if p * w ≤ g ∧ g < p * w + w then v.testBit (g - p * w) else storageBit m g :=
  storageBit_pixSetBits h _ _ _ _

/-- Bit `j` of a cell's value (20_memory.md R52, R54). -/
theorem testBit_pixGet (m : Memory) (w p j : Nat) :
    (pixGet m w p).testBit j = (decide (j < w) && storageBit m (p * w + j)) :=
  testBit_pixGetBits m _ _ _

/-! ## The pack algorithm -/

/-- The mask of the start byte: the bits of the cell that lie in that byte (20_memory.md R56). -/
theorem getLsbD_startMask {w o k : Nat} (hk : k < 8) :
    (BitVec.ofNat 8 ((2 ^ w - 1) <<< o)).getLsbD k = decide (o ≤ k ∧ k < o + w) := by
  rw [BitVec.getLsbD_ofNat, Nat.testBit_shiftLeft, Nat.testBit_two_pow_sub_one, decide_eq_true hk, Bool.true_and,
    ← Bool.decide_and, decide_eq_decide]
  omega

/-- The mask of the end byte: its low bits (20_memory.md R56). -/
theorem getLsbD_endMask {o k : Nat} (hk : k < 8) : (BitVec.ofNat 8 (2 ^ o - 1)).getLsbD k = decide (k < o) := by
  rw [BitVec.getLsbD_ofNat, Nat.testBit_two_pow_sub_one, decide_eq_true hk, Bool.true_and]

/-- Pack replaces the bits of its cell and no other, at every width that an index has (20_memory.md R56, R59). -/
theorem storageBit_pack {m : Memory} (h : Memory.wf m = true) {w : Nat} (hw : w ≤ 8) (p : Nat) (index : Byte) (g : Nat) :
    storageBit (pack m w p index) g =
      if p * w ≤ g ∧ g < p * w + w then index.getLsbD (g - p * w) else storageBit m g := by
  have hlt : g % 8 < 8 := Nat.mod_lt _ (by decide)
  unfold pack
  generalize p * w = base
  dsimp only
  split
  · next hone =>
    have hcell : (g / 8 = base / 8 ∧ base % 8 ≤ g % 8 ∧ g % 8 < base % 8 + w) ↔ base ≤ g ∧ g < base + w := by omega
    simp only [storageBit_mergeByte h, getLsbD_startMask hlt, decide_eq_true_eq, hcell]
    refine ite_congr rfl (fun hin => ?_) fun _ => rfl
    rw [getLsbD_shiftLeft_of_le hlt (by omega), show g % 8 - base % 8 = g - base by omega]
  · next htwo =>
    simp only [storageBit_mergeByte (mergeByte_wf h _ _ _), storageBit_mergeByte h, getLsbD_startMask hlt,
      getLsbD_endMask hlt, decide_eq_true_eq]
    split_ifs with hend hin hstart hin
    · rw [BitVec.getLsbD_ushiftRight, show w - (base + w) % 8 + g % 8 = g - base by omega]
    · omega
    · rw [getLsbD_shiftLeft_of_le hlt (by omega), show g % 8 - base % 8 = g - base by omega]
    · omega
    · omega
    · rfl

/-- The pack algorithm is PixSet of the index mod 2^w (20_memory.md R58). -/
theorem pack_eq_pixSet {m : Memory} (h : Memory.wf m = true) {w : Nat} (hw : w ≤ 8) (p : Nat) (index : Byte) :
    pack m w p index = pixSet m w p (index.toNat % 2 ^ w) := by
  refine mem_ext_bits (pack_wf h w p index) (pixSet_wf h w p _) fun g => ?_
  rw [storageBit_pack h hw, storageBit_pixSet h]
  refine ite_congr rfl (fun hin => ?_) fun _ => rfl
  rw [Nat.testBit_mod_two_pow, decide_eq_true (show g - p * w < w by omega), Bool.true_and, BitVec.testBit_toNat]

/-! ## The unpack algorithm -/

/-- A bit of a cell that lies in the byte in which the cell starts. -/
theorem storageBit_of_startByte (m : Memory) {base j : Nat} (hj : base % 8 + j < 8) :
    storageBit m (base + j) = (memRead m (base / 8)).getLsbD (base % 8 + j) := by
  rw [getLsbD_memRead m _ hj, show 8 * (base / 8) + (base % 8 + j) = base + j by omega]

/-- A bit of a cell that lies in the byte in which a straddling cell ends (20_memory.md R59). -/
theorem storageBit_of_endByte (m : Memory) {base w j : Nat} (hw : w ≤ 8) (hjw : j < w) (hj : 8 ≤ base % 8 + j) :
    storageBit m (base + j) = (memRead m ((base + w) / 8)).getLsbD (j - (8 - base % 8)) := by
  rw [getLsbD_memRead m _ (by omega), show 8 * ((base + w) / 8) + (j - (8 - base % 8)) = base + j by omega]

/-- The unpack algorithm is PixGet: a bit of the cell lies in the start byte, or in the end byte (20_memory.md R58). -/
theorem unpack_eq_pixGet (m : Memory) {w : Nat} (hw : w ≤ 8) (p : Nat) : unpack m w p = pixGet m w p := by
  refine Nat.eq_of_testBit_eq fun j => ?_
  rw [testBit_pixGet]
  unfold unpack
  generalize p * w = base
  dsimp only
  rw [Nat.and_two_pow_sub_one_eq_mod, Nat.testBit_mod_two_pow, Nat.testBit_or, Nat.testBit_shiftRight,
    BitVec.testBit_toNat]
  by_cases hj : j < w
  · rw [decide_eq_true hj, Bool.true_and, Bool.true_and]
    by_cases hstart : base % 8 + j < 8
    · rw [storageBit_of_startByte m hstart]
      split
      · rw [Nat.testBit_shiftLeft, decide_eq_false (by omega), Bool.false_and, Bool.or_false]
      · rw [Nat.zero_testBit, Bool.or_false]
    · have hend : j - (8 - base % 8) < (base + w) % 8 := by omega
      rw [storageBit_of_endByte m hw hj (by omega), if_pos (by omega), BitVec.getLsbD_of_ge _ _ (by omega),
        Bool.false_or, Nat.testBit_shiftLeft, decide_eq_true (by omega), Bool.true_and,
        Nat.and_two_pow_sub_one_eq_mod, Nat.testBit_mod_two_pow, decide_eq_true hend, Bool.true_and,
        BitVec.testBit_toNat]
  · rw [decide_eq_false hj, Bool.false_and, Bool.false_and]

/-- Settles O35: both forms of a store set the same storage bits, and both forms of a load have the same bits. -/
theorem packAndUnpackAreThePixelPrimitives : Obligations.PackAndUnpackAreThePixelPrimitives :=
  fun _ _ _ _ hwf _ hw => ⟨pack_eq_pixSet hwf hw _ _, unpack_eq_pixGet _ hw _⟩

end Sys2Proof.Machine
end

section
/-! Cells of whole bytes are little-endian (20_memory.md R53, R61). -/

namespace Sys2Proof.Machine

/-! ## Stores -/

/-- A store to a cell of `n` bytes writes the value's bytes from the lowest on, and no other byte. -/
theorem memRead_pixSet_bytes {m : Memory} (h : Memory.wf m = true) (n p v a : Nat) :
    memRead (pixSet m (8 * n) p v) a =
      if n * p ≤ a ∧ a < n * p + n then BitVec.ofNat 8 (v / 2 ^ (8 * (a - n * p))) else memRead m a := by
  have hbase : p * (8 * n) = 8 * (n * p) := by ring
  refine BitVec.eq_of_getLsbD_eq fun k hk => ?_
  rw [getLsbD_memRead _ _ hk, storageBit_pixSet h, hbase]
  by_cases hin : n * p ≤ a ∧ a < n * p + n
  · rw [if_pos (by omega), if_pos hin, BitVec.getLsbD_ofNat, decide_eq_true hk, Bool.true_and, Nat.testBit_div_two_pow,
      show 8 * a + k - 8 * (n * p) = k + 8 * (a - n * p) by omega]
  · rw [if_neg (by omega), if_neg hin, getLsbD_memRead _ _ hk]

/-! ## Loads -/

theorem pixGetBits_lt (m : Memory) (base k : Nat) : pixGetBits m base k < 2 ^ k :=
  Nat.lt_pow_two_of_testBit _ fun j hj => by
    rw [testBit_pixGetBits, decide_eq_false (Nat.not_lt.mpr hj), Bool.false_and]

/-- A load of whole bytes adds each byte at its place. -/
theorem pixGetBits_succ_byte (m : Memory) (a n : Nat) :
    pixGetBits m (8 * a) (8 * (n + 1)) = pixGetBits m (8 * a) (8 * n) + (memRead m (a + n)).toNat * 2 ^ (8 * n) := by
  refine Nat.eq_of_testBit_eq fun j => ?_
  rw [Nat.add_comm (pixGetBits m (8 * a) (8 * n)), Nat.mul_comm _ (2 ^ (8 * n)),
    Nat.testBit_two_pow_mul_add _ (pixGetBits_lt m _ _), testBit_pixGetBits, BitVec.testBit_toNat]
  split
  · next hlow => rw [testBit_pixGetBits, decide_eq_true hlow, decide_eq_true (by omega)]
  · next hhigh =>
    by_cases hj : j - 8 * n < 8
    · rw [getLsbD_memRead _ _ hj, decide_eq_true (by omega), Bool.true_and,
        show 8 * (a + n) + (j - 8 * n) = 8 * a + j by omega]
    · rw [decide_eq_false (by omega), Bool.false_and, BitVec.getLsbD_of_ge _ _ (by omega)]

theorem pixGetBits_bytes (m : Memory) (a n : Nat) :
    pixGetBits m (8 * a) (8 * n) = ∑ k ∈ Finset.range n, (memRead m (a + k)).toNat * 2 ^ (8 * k) := by
  induction n with
  | zero => rfl
  | succ n ih => rw [pixGetBits_succ_byte, ih, Finset.sum_range_succ]

/-- A load from a cell of `n` bytes reads them from the lowest on. -/
theorem pixGet_bytes (m : Memory) (n p : Nat) :
    pixGet m (8 * n) p = ∑ k ∈ Finset.range n, (memRead m (n * p + k)).toNat * 2 ^ (8 * k) := by
  rw [pixGet, show p * (8 * n) = 8 * (n * p) by ring, pixGetBits_bytes]

/-- Settles O36: the cells of two and of four bytes. -/
theorem fixedWidthCellsAreLittleEndian : Obligations.FixedWidthCellsAreLittleEndian := by
  intro m p v a hwf
  refine ⟨?_, memRead_pixSet_bytes hwf 4 p v a, ?_, ?_⟩
  · rw [memRead_pixSet_bytes hwf 2]
    by_cases hlow : a = 2 * p
    · simp [hlow]
    by_cases hhigh : a = 2 * p + 1
    · simp [hhigh]
    · rw [if_neg (by omega), if_neg hlow, if_neg hhigh]
  · simpa [Finset.sum_range_succ] using pixGet_bytes m 2 p
  · simpa [Finset.sum_range_succ] using pixGet_bytes m 4 p

end Sys2Proof.Machine
end

section
/-! What the pixel commands do to the cells of the buffer: a write replaces the bits of its own cell, so the padding keeps
its bits (20_memory.md R63), and of the slots only the one written reads differently (R55, R58). -/

namespace Sys2Proof.Machine

open Sys2Proof.Safety

/-! ## Store -/

section
variable {variant : Variant} {m : Memory} {w : Nat} (hwf : Memory.wf m = true) (hw : variant = .indexed → w ≤ 8)
include hwf hw

/-- `Store` replaces the bits of its cell and no other, in every variant (42_pixel_write.md R151). -/
theorem storageBit_storeCell (p v g : Nat) :
    storageBit (storeCell variant m w p v) g =
      if p * w ≤ g ∧ g < p * w + w then v.testBit (g - p * w) else storageBit m g := by
  cases variant with
  | v565 | v666 => exact storageBit_pixSet hwf w p v g
  | indexed =>
    have hle := hw rfl
    rw [storeCell, storageBit_pack hwf hle]
    refine ite_congr rfl (fun hin => ?_) fun _ => rfl
    rw [BitVec.getLsbD_ofNat, decide_eq_true (by omega), Bool.true_and]

/-- The loop of FILL over `n` slots changes no bit past their cells. -/
theorem storageBit_fillCells_of_le (v : Nat) {n g : Nat} (hg : n * w ≤ g) :
    storageBit (fillCells variant m w v n) g = storageBit m g := by
  induction n with
  | zero => rfl
  | succ n ih =>
    rw [Nat.succ_mul] at hg
    rw [fillCells, storageBit_storeCell (fillCells_wf hwf variant w v n) hw, if_neg (by omega), ih (by omega)]

/-- A value stored is loaded again, cut to the width of the cell (20_memory.md R60). -/
theorem pixGet_storeCell_same (p v : Nat) : pixGet (storeCell variant m w p v) w p = v % 2 ^ w := by
  refine Nat.eq_of_testBit_eq fun j => ?_
  rw [testBit_pixGet, Nat.testBit_mod_two_pow, storageBit_storeCell hwf hw, Nat.add_sub_cancel_left]
  by_cases hj : j < w
  · rw [if_pos (by omega)]
  · rw [decide_eq_false hj, Bool.false_and, Bool.false_and]

/-- Cells do not overlap (20_memory.md R52): every other slot loads as before. -/
theorem pixGet_storeCell_other {p q : Nat} (hne : q ≠ p) (v : Nat) :
    pixGet (storeCell variant m w p v) w q = pixGet m w q := by
  refine Nat.eq_of_testBit_eq fun j => ?_
  rw [testBit_pixGet, testBit_pixGet, storageBit_storeCell hwf hw]
  by_cases hj : j < w
  · have hdisjoint : q * w + w ≤ p * w ∨ p * w + w ≤ q * w := by
      rw [← Nat.succ_mul, ← Nat.succ_mul]
      exact (Nat.lt_or_gt_of_ne hne).imp (Nat.mul_le_mul_right w) (Nat.mul_le_mul_right w)
    rw [if_neg (by omega)]
  · rw [decide_eq_false hj, Bool.false_and, Bool.false_and]

end

/-! ## Pixel commands in a READY state of the invariant -/

section
variable {s : State} (hinv : Inv s) (hs : s.engState = .ready)
include hinv hs

/-- An index cell is at most a byte wide (41_lifecycle.md R136). -/
theorem bpp_le_eight_of_indexed (hv : s.cfgVariant = .indexed) : s.bpp.toNat ≤ 8 := by
  obtain ⟨-, -, hbpp, -⟩ := hinv.buffer hs
  rw [hbpp, hv]
  exact bppOf_indexed_le_eight hinv.palSizeLegal

theorem storageBit_stored (p v g : Nat) :
    storageBit (stored s p v) g =
      if p * s.bpp.toNat ≤ g ∧ g < p * s.bpp.toNat + s.bpp.toNat then v.testBit (g - p * s.bpp.toNat)
      else storageBit s.storage g :=
  storageBit_storeCell hinv.storageCanonical (bpp_le_eight_of_indexed hinv hs) p v g

/-- A write to a slot of the buffer changes no bit past the cells (20_memory.md R63). -/
theorem storageBit_stored_of_le {p g : Nat} (hp : p < s.bufLen.toNat) (v : Nat)
    (hg : s.bufLen.toNat * s.bpp.toNat ≤ g) : storageBit (stored s p v) g = storageBit s.storage g := by
  have hend : p * s.bpp.toNat + s.bpp.toNat ≤ s.bufLen.toNat * s.bpp.toNat := by
    rw [← Nat.succ_mul]
    exact Nat.mul_le_mul_right _ hp
  rw [storageBit_stored hinv hs, if_neg (by omega)]

theorem storageBit_filled_of_le (v : Nat) {g : Nat} (hg : s.bufLen.toNat * s.bpp.toNat ≤ g) :
    storageBit (filled s v) g = storageBit s.storage g :=
  storageBit_fillCells_of_le hinv.storageCanonical (bpp_le_eight_of_indexed hinv hs) v hg

theorem cellBits_pixelWritten_same (x y : Half) (v : Nat) :
    cellBits (s.pixelWritten x y v) (slotOf s x y) = v % 2 ^ s.bpp.toNat :=
  pixGet_storeCell_same hinv.storageCanonical (bpp_le_eight_of_indexed hinv hs) _ v

theorem cellBits_pixelWritten_other (x y : Half) (v : Nat) {p : Nat} (hne : p ≠ slotOf s x y) :
    cellBits (s.pixelWritten x y v) p = cellBits s p :=
  pixGet_storeCell_other hinv.storageCanonical (bpp_le_eight_of_indexed hinv hs) hne v

/-- The raw index of a slot is the value of its cell (20_memory.md R58). -/
theorem rawIndex_eq_cellBits (hv : s.cfgVariant = .indexed) (p : Nat) : rawIndex s p = cellBits s p :=
  unpack_eq_pixGet _ (bpp_le_eight_of_indexed hinv hs hv) p

theorem exec_getIndexXy_of_inv (hv : s.cfgVariant = .indexed) {x y : Half} (hx : x < s.width) (hy : y < s.height) :
    exec (.getIndexXy x y) s = .next (answered s (BitVec.ofNat 32 (cellBits s (slotOf s x y)))) := by
  have hframe : inFrame s x y = true := by simp [inFrame, hx, hy]
  change inReady s (inIndexed s (atPixel s x y _)) = _
  rw [inReady, hs, inIndexed, hv, atPixel_of_inv hinv hs, if_pos hframe, rawIndex_eq_cellBits hinv hs hv]
  rfl

theorem exec_getIndexPos_of_inv (hv : s.cfgVariant = .indexed) {pos : Word} (hpos : pos < s.bufLen) :
    exec (.getIndexPos pos) s = .next (answered s (BitVec.ofNat 32 (cellBits s pos.toNat))) := by
  change inReady s (inIndexed s (atPosition s pos _)) = _
  rw [inReady, hs, inIndexed, hv, atPosition_of_inv hinv hs, if_pos hpos, rawIndex_eq_cellBits hinv hs hv]
  rfl

end

/-- Settles O24: a write ends with its cell, and the last cell ends at BUF_LEN * BPP. -/
theorem paddingIsNeverWritten : Obligations.PaddingIsNeverWritten := by
  intro i s t hinv h g hg
  cases exec_next h with
  | filled c hs => exact storageBit_filled_of_le hinv hs _ hg
  | pixelSet x y _ hs hx hy | indexSet x y _ hs hx hy =>
    exact storageBit_stored_of_le hinv hs (slotOf_lt_bufLen hinv hs hx hy) _ hg
  | answered | raised | configured | paletteSized | paletteWritten | allocFailed | allocated | dirtyReset => rfl

/-- Settles O46: the write keeps the invariant, so both reads load their cells after it. -/
theorem indexWriteReadsBack : Obligations.IndexWriteReadsBack := by
  intro s x y index hinv hs hv hx hy
  have hinv' : Inv (s.pixelWritten x y index.toNat) := inv_pixelWritten hinv hs hx hy _
  refine ⟨_, exec_setPixelIndex_of_inv hinv hs hv hx hy index, ?_, fun pos hpos hne => ?_⟩
  · have hcell : cellBits (s.pixelWritten x y index.toNat) (slotOf (s.pixelWritten x y index.toNat) x y) =
        index.toNat % 2 ^ s.bpp.toNat := cellBits_pixelWritten_same hinv hs x y _
    rw [exec_getIndexXy_of_inv hinv' hs hv hx hy, hcell]
  · refine ⟨_, exec_getIndexPos_of_inv hinv hs hv hpos, ?_⟩
    rw [exec_getIndexPos_of_inv hinv' hs hv hpos, cellBits_pixelWritten_other hinv hs x y _ hne]

end Sys2Proof.Machine
end

section
/-! The words of a command (30_encoding.md R82, R83): the fields of each word, and W0 as its opcode and the 24 bits
beside it. -/

namespace Sys2Proof

/-! ## Operand words -/

@[simp] theorem upperHalf_append (x y : Half) : upperHalf (x ++ y) = x := BitVec.extractLsb'_append_eq_left

@[simp] theorem lowerHalf_append (x y : Half) : lowerHalf (x ++ y) = y := BitVec.extractLsb'_append_eq_right

@[simp] theorem upperHalf_append_lowerHalf (v : Word) : upperHalf v ++ lowerHalf v = v :=
  BitVec.extractLsb'_append_extractLsb' (w := 16) (len := 16)

@[simp] theorem colorOfWord_wordOfColor (c : Color) : colorOfWord (wordOfColor c) = c := by
  have hr : (wordOfColor c).extractLsb' 24 8 = c.r :=
    (BitVec.extractLsb'_append_eq_of_le (by decide)).trans
      ((BitVec.extractLsb'_append_eq_of_le (by decide)).trans BitVec.extractLsb'_append_eq_left)
  have hg : (wordOfColor c).extractLsb' 16 8 = c.g :=
    (BitVec.extractLsb'_append_eq_of_le (by decide)).trans
      ((BitVec.extractLsb'_append_eq_of_le (by decide)).trans BitVec.extractLsb'_append_eq_right)
  have hb : (wordOfColor c).extractLsb' 8 8 = c.b :=
    (BitVec.extractLsb'_append_eq_of_le (by decide)).trans BitVec.extractLsb'_append_eq_right
  have hw : (wordOfColor c).extractLsb' 0 8 = c.w := BitVec.extractLsb'_append_eq_right
  rw [colorOfWord, hr, hg, hb, hw]

@[simp] theorem wordOfColor_colorOfWord (v : Word) : wordOfColor (colorOfWord v) = v := by
  have hrg : v.extractLsb' 24 8 ++ v.extractLsb' 16 8 = v.extractLsb' 16 16 :=
    BitVec.extractLsb'_append_extractLsb'_eq_extractLsb' rfl
  have hrgb : v.extractLsb' 16 16 ++ v.extractLsb' 8 8 = v.extractLsb' 8 24 :=
    BitVec.extractLsb'_append_extractLsb'_eq_extractLsb' rfl
  have hrgbw : v.extractLsb' 8 24 ++ v.extractLsb' 0 8 = v :=
    BitVec.extractLsb'_append_extractLsb' (w := 24) (len := 8)
  calc wordOfColor (colorOfWord v)
    _ = (v.extractLsb' 24 8 ++ v.extractLsb' 16 8 : BitVec 16) ++ v.extractLsb' 8 8 ++ v.extractLsb' 0 8 := rfl
    _ = v := by rw [hrg, hrgb, hrgbw]

/-! ## Word 0 -/

/-- W0[23:0], the bits beside the opcode (30_encoding.md R82). -/
def lowBits (w0 : Word) : BitVec 24 := w0.extractLsb' 0 24

@[simp] theorem opcodeField_append (o : Byte) (b : BitVec 24) : opcodeField (o ++ b) = o :=
  BitVec.extractLsb'_append_eq_left

@[simp] theorem lowBits_append (o : Byte) (b : BitVec 24) : lowBits (o ++ b) = b :=
  BitVec.extractLsb'_append_eq_right

theorem opcodeField_append_lowBits (w0 : Word) : opcodeField w0 ++ lowBits w0 = w0 :=
  BitVec.extractLsb'_append_extractLsb' (w := 8) (len := 24)

theorem append_inj {n k : Nat} {a b : BitVec n} {c d : BitVec k} : a ++ c = b ++ d ↔ a = b ∧ c = d := by
  constructor
  · intro h
    have hhi := congrArg (BitVec.extractLsb' k n) h
    have hlo := congrArg (BitVec.extractLsb' 0 k) h
    rw [BitVec.extractLsb'_append_eq_left, BitVec.extractLsb'_append_eq_left] at hhi
    rw [BitVec.extractLsb'_append_eq_right, BitVec.extractLsb'_append_eq_right] at hlo
    exact ⟨hhi, hlo⟩
  · rintro ⟨rfl, rfl⟩
    rfl

/-! ## Reserved bits -/

/-- Every 1 bit of `x` is one of the bits `m`: the bits outside `m`, which a format marks `0`, are 0 (30_encoding.md
R82). -/
def Within {n : Nat} (x m : BitVec n) : Prop := x &&& ~~~m = 0#n

theorem within_append {n k : Nat} {hi mh : BitVec n} {lo ml : BitVec k} :
    Within (hi ++ lo) (mh ++ ml) ↔ Within hi mh ∧ Within lo ml := by
  rw [Within, BitVec.not_append, BitVec.and_append, ← BitVec.zero_append_zero, append_inj]
  rfl

@[simp] theorem within_zero {n : Nat} {x : BitVec n} : Within x 0#n ↔ x = 0#n := by simp [Within]

@[simp] theorem within_allOnes {n : Nat} (x : BitVec n) : Within x (BitVec.allOnes n) := by simp [Within]

/-- One field `lo` in the lowest bits: every bit above it is reserved. -/
theorem zero_append_eq_iff {n k : Nat} {hi : BitVec n} {lo v : BitVec k} :
    0#n ++ v = hi ++ lo ↔ Within (hi ++ lo) (0#n ++ BitVec.allOnes k) ∧ lo = v := by
  rw [append_inj, within_append, within_zero, and_iff_left (within_allOnes lo), eq_comm, eq_comm (a := v)]

theorem withOperands_eq_ok_iff {m w0 : Word} {i j : Instr} :
    withOperands m w0 i = .ok j ↔ Within (lowBits w0) (lowBits m) ∧ i = j := by
  have hreserved : w0 &&& 0x00FFFFFF &&& ~~~m = 0 ↔ Within (lowBits w0) (lowBits m) := by
    have hparts : w0 &&& 0x00FFFFFF &&& ~~~m =
        (opcodeField w0 ++ lowBits w0) &&& (0#8 ++ BitVec.allOnes 24) &&& ~~~(opcodeField m ++ lowBits m) := by
      rw [opcodeField_append_lowBits, opcodeField_append_lowBits]
      rfl
    rw [hparts, BitVec.not_append, BitVec.and_append, BitVec.and_append, BitVec.and_zero, BitVec.zero_and,
      BitVec.and_allOnes]
    change 0#8 ++ _ = 0#8 ++ 0#24 ↔ _
    rw [append_inj, and_iff_right rfl]
    rfl
  unfold withOperands
  split
  · next hr => simp [hreserved.mp hr]
  · next hr => simp [mt hreserved.mpr hr]

/-! ## The operands in word 0

For each kind of W0: W0[23:0] is the encoder's placement of the operand fields exactly if the reserved bits are 0 and
the decoder reads these fields. -/

theorem noBits_eq_lowBits_iff {w0 : Word} : 0#24 = lowBits w0 ↔ Within (lowBits w0) (lowBits noBits) :=
  eq_comm.trans within_zero.symm

theorem slotBits_eq_lowBits_iff {w0 : Word} {slot : Byte} :
    0#16 ++ slot = lowBits w0 ↔ Within (lowBits w0) (lowBits slotBits) ∧ w0.extractLsb' 0 8 = slot := by
  have hfields : w0.extractLsb' 8 16 ++ w0.extractLsb' 0 8 = lowBits w0 :=
    BitVec.extractLsb'_append_extractLsb'_eq_extractLsb' rfl
  rw [← hfields]
  exact zero_append_eq_iff

theorem fpsBits_eq_lowBits_iff {w0 : Word} {psize : BitVec 9} :
    0#15 ++ psize = lowBits w0 ↔ Within (lowBits w0) (lowBits fpsBits) ∧ w0.extractLsb' 0 9 = psize := by
  have hfields : w0.extractLsb' 9 15 ++ w0.extractLsb' 0 9 = lowBits w0 :=
    BitVec.extractLsb'_append_extractLsb'_eq_extractLsb' rfl
  rw [← hfields]
  exact zero_append_eq_iff

theorem ofBool_eq_extract_iff {w0 : Word} {k : Nat} {rba : Bool} :
    BitVec.ofBool rba = w0.extractLsb' k 1 ↔ w0.getLsbD k = rba := by
  have hbit : w0.extractLsb' k 1 = BitVec.ofBool (w0.getLsbD k) := by
    refine BitVec.eq_of_getLsbD_eq fun j hj => ?_
    obtain rfl : j = 0 := by omega
    simp
  rw [hbit, BitVec.ofBool_eq_iff_eq, eq_comm]

theorem fcfgBits_eq_lowBits_iff {w0 : Word} {var : BitVec 2} {rba : Bool} :
    0#15 ++ BitVec.ofBool rba ++ 0#6 ++ var = lowBits w0 ↔
      Within (lowBits w0) (lowBits fcfgBits) ∧ w0.extractLsb' 0 2 = var ∧ w0.getLsbD 8 = rba := by
  have hupper : w0.extractLsb' 9 15 ++ w0.extractLsb' 8 1 = w0.extractLsb' 8 16 :=
    BitVec.extractLsb'_append_extractLsb'_eq_extractLsb' rfl
  have hmiddle : w0.extractLsb' 8 16 ++ w0.extractLsb' 2 6 = w0.extractLsb' 2 22 :=
    BitVec.extractLsb'_append_extractLsb'_eq_extractLsb' rfl
  have hfields : w0.extractLsb' 2 22 ++ w0.extractLsb' 0 2 = lowBits w0 :=
    BitVec.extractLsb'_append_extractLsb'_eq_extractLsb' rfl
  have hmask : lowBits fcfgBits = 0#15 ++ BitVec.allOnes 1 ++ 0#6 ++ BitVec.allOnes 2 := rfl
  rw [← hfields, ← hmiddle, ← hupper, hmask, within_append, within_append, within_append, append_inj, append_inj,
    append_inj, within_zero, within_zero, ofBool_eq_extract_iff]
  constructor
  · rintro ⟨⟨⟨hres, hrba⟩, hres'⟩, hvar⟩
    exact ⟨⟨⟨⟨hres.symm, within_allOnes _⟩, hres'.symm⟩, within_allOnes _⟩, hvar.symm, hrba⟩
  · rintro ⟨⟨⟨⟨hres, -⟩, hres'⟩, -⟩, hvar, hrba⟩
    exact ⟨⟨⟨hres.symm, hrba⟩, hres'.symm⟩, hvar.symm⟩

end Sys2Proof
end

section
/-! The opcode table and the decoder (30_encoding.md R84 to R86). -/

namespace Sys2Proof

open Sys2Proof.Safety

/-! ## The opcode table -/

/-- The opcode and the W0 operand bits of each row of the opcode table, in the table's order. -/
def formats : List (Byte × Word) :=
  [(0x00, noBits), (0x01, fcfgBits), (0x02, fpsBits), (0x03, slotBits), (0x04, slotBits), (0x05, noBits),
   (0x10, noBits), (0x11, noBits), (0x12, slotBits),
   (0x20, noBits), (0x21, noBits), (0x22, noBits), (0x23, noBits), (0x24, noBits), (0x25, noBits),
   (0x30, noBits), (0x31, noBits), (0x32, noBits), (0x33, noBits), (0x34, noBits), (0x35, noBits), (0x36, noBits),
   (0x40, noBits), (0x41, noBits), (0x42, noBits), (0x43, noBits), (0x44, noBits), (0x45, noBits), (0x46, noBits)]

/-- The `match` and `mask` of a row: the mask leaves out the operand bits. -/
def rowOf (f : Byte × Word) : Word × Word := (f.1 ++ 0#24, ~~~(0#8 ++ lowBits f.2))

theorem opcodeRows_eq_map_rowOf : opcodeRows = formats.map rowOf := by decide

theorem fits_rowOf_iff {w0 : Word} {f : Byte × Word} :
    w0 &&& (rowOf f).2 = (rowOf f).1 ↔ opcodeField w0 = f.1 ∧ Within (lowBits w0) (lowBits f.2) := by
  conv_lhs => rw [← opcodeField_append_lowBits w0]
  change (opcodeField w0 ++ lowBits w0) &&& ~~~(0#8 ++ lowBits f.2) = f.1 ++ 0#24 ↔ _
  rw [BitVec.not_append, BitVec.and_append, append_inj, BitVec.not_zero, BitVec.and_allOnes]
  rfl

theorem legalW0_iff {w0 : Word} :
    legalW0 w0 = true ↔ ∃ f ∈ formats, opcodeField w0 = f.1 ∧ Within (lowBits w0) (lowBits f.2) := by
  simp [legalW0, opcodeRows_eq_map_rowOf, fits_rowOf_iff]

theorem formats_opcodes_nodup : (formats.map Prod.fst).Nodup := by decide

/-- Settles O3: a word fits only rows of its own opcode, and no opcode has two rows. -/
theorem opcodeRowsAreDisjoint : Obligations.OpcodeRowsAreDisjoint := by
  unfold Obligations.OpcodeRowsAreDisjoint
  rw [opcodeRows_eq_map_rowOf, List.pairwise_map]
  refine (List.pairwise_map.mp formats_opcodes_nodup).imp fun hne w0 hf hg => hne ?_
  exact (fits_rowOf_iff.mp hf).1.symm.trans (fits_rowOf_iff.mp hg).1

/-- Where the opcode has a row, word 0 can fit that row only. -/
theorem legalW0_iff_within {w0 : Word} {f : Byte × Word} (hf : f ∈ formats) (hop : opcodeField w0 = f.1) :
    legalW0 w0 = true ↔ Within (lowBits w0) (lowBits f.2) := by
  rw [legalW0_iff]
  constructor
  · rintro ⟨g, hg, hop', hwithin⟩
    have hfg : f = g := List.inj_on_of_nodup_map formats_opcodes_nodup hf hg (hop.symm.trans hop')
    rwa [hfg]
  · exact fun hwithin => ⟨f, hf, hop, hwithin⟩

/-! ## What the decoder accepts -/

theorem withOperands_ok_iff_legalW0 {w0 m : Word} {n : Nat} {i : Instr} (hop : (opcodeField w0).toNat = n)
    (hrow : (BitVec.ofNat 8 n, m) ∈ formats) : (∃ j, withOperands m w0 i = .ok j) ↔ legalW0 w0 = true := by
  have hop' : opcodeField w0 = BitVec.ofNat 8 n := by simp [← hop]
  simp [legalW0_iff_within hrow hop', withOperands_eq_ok_iff]

/-- Each arm of the decoder names a row of the table; the last arm is left the opcodes that no row has. -/
theorem decodeWords_ok_iff_legalW0 {w0 w1 w2 : Word} : (∃ i, decodeWords w0 w1 w2 = .ok i) ↔ legalW0 w0 = true := by
  unfold decodeWords
  split
  case h_30 => simp_all [legalW0_iff, formats, BitVec.toNat_eq]
  all_goals
    rename_i hop
    exact withOperands_ok_iff_legalW0 hop (by decide)

/-- Settles O2. -/
theorem decodeAcceptsExactlyTheTable : Obligations.DecodeAcceptsExactlyTheTable :=
  fun _ => decodeWords_ok_iff_legalW0

/-! ## What the decoder reads -/

/-- The words `w0`, `w1` and `w2` spell the command `i`: word 0 is the encoder's, and so is each operand word that the
opcode uses; to the others the encoder writes 0 (30_encoding.md R82, R91). -/
structure Spells (w0 w1 w2 : Word) (i : Instr) : Prop where
  opcode : opcodeOf i = opcodeField w0
  operandBits : operandBitsOf i = lowBits w0
  word1 : w1Of i = if usesW1 (opcodeField w0).toNat then w1 else 0
  word2 : w2Of i = if usesW2 (opcodeField w0).toNat then w2 else 0

/-- In each arm the opcode is known; the reserved bits are 0, so the operand fields are all of W0[23:0]. -/
theorem spells_of_decodeWords {w0 w1 w2 : Word} {i : Instr} (h : decodeWords w0 w1 w2 = .ok i) : Spells w0 w1 w2 i := by
  unfold decodeWords at h
  split at h
  case h_30 => cases h
  all_goals
    rename_i hop
    obtain ⟨hwithin, rfl⟩ := withOperands_eq_ok_iff.mp h
    constructor
    case opcode => exact BitVec.eq_of_toNat_eq hop.symm
    case operandBits =>
      simp only [operandBitsOf, BitVec.ofNat_eq_ofNat, noBits_eq_lowBits_iff, slotBits_eq_lowBits_iff,
        fpsBits_eq_lowBits_iff, fcfgBits_eq_lowBits_iff, hwithin, and_self]
    case word1 => simp [hop, w1Of, usesW1]
    case word2 => simp [hop, w2Of, usesW2]

/-- The arm of the command's own opcode finds the reserved bits 0 and reads every operand back. -/
theorem decodeWords_encoded {w0 : Word} {i : Instr} (hop : opcodeOf i = opcodeField w0)
    (hbits : operandBitsOf i = lowBits w0) : decodeWords w0 (w1Of i) (w2Of i) = .ok i := by
  unfold decodeWords
  rw [← hop]
  cases i <;>
    simp only [operandBitsOf, BitVec.ofNat_eq_ofNat, noBits_eq_lowBits_iff, slotBits_eq_lowBits_iff,
      fpsBits_eq_lowBits_iff, fcfgBits_eq_lowBits_iff] at hbits <;>
    simp [opcodeOf, w1Of, w2Of, withOperands_eq_ok_iff, hbits, -BitVec.getLsbD_eq_getElem]

/-- Settles O1. -/
theorem decodeOfEncode : Obligations.DecodeOfEncode := by
  intro i
  rw [decode, cmdW0_encode, encode, cmdW1_cmdOfWords, cmdW2_cmdOfWords]
  exact decodeWords_encoded (opcodeField_append _ _).symm (lowBits_append _ _).symm

/-- Settles O4. -/
theorem encodeRecoversUsedWords : Obligations.EncodeRecoversUsedWords := by
  intro c i h
  obtain ⟨hop, hbits, hw1, hw2⟩ := spells_of_decodeWords h
  refine ⟨?_, (cmdW1_cmdOfWords _ _ _).trans hw1, (cmdW2_cmdOfWords _ _ _).trans hw2⟩
  rw [cmdW0_encode, hop, hbits, opcodeField_append_lowBits]

/-- Settles O6: each word is decoded by evaluation. -/
theorem knownWordsDecode : Obligations.KnownWordsDecode := by
  unfold Obligations.KnownWordsDecode
  decide

end Sys2Proof
end

section
/-! Operand words and bits that a command does not use (30_encoding.md R87), illegal commands (R86) and the
pseudo-instructions (R90). -/

namespace Sys2Proof.Machine

open Sys2Proof.Safety

/-! ## Unused operand words and bits -/

/-- An arm of the decoder that looks at `w1` belongs to an opcode that uses it. -/
theorem decodeWords_ignores_w1 {w0 : Word} (h : usesW1 (opcodeField w0).toNat = false) (w1 w1' w2 : Word) :
    decodeWords w0 w1 w2 = decodeWords w0 w1' w2 := by
  unfold decodeWords
  split <;> simp_all [usesW1]

theorem decodeWords_ignores_w2 {w0 : Word} (h : usesW2 (opcodeField w0).toNat = false) (w1 w2 w2' : Word) :
    decodeWords w0 w1 w2 = decodeWords w0 w1 w2' := by
  unfold decodeWords
  split <;> simp_all [usesW2]

theorem extractLsb'_congr_of_mod {v v' : Word} {n : Nat} (h : v.toNat % 2 ^ n = v'.toNat % 2 ^ n) :
    v.extractLsb' 0 n = v'.extractLsb' 0 n := by
  apply BitVec.eq_of_toNat_eq
  simpa using h

theorem extractLsb'_congr_of_div {v v' : Word} {k : Nat} (h : v.toNat / 2 ^ k = v'.toNat / 2 ^ k) (n : Nat) :
    v.extractLsb' k n = v'.extractLsb' k n := by
  apply BitVec.eq_of_toNat_eq
  rw [BitVec.extractLsb'_toNat, BitVec.extractLsb'_toNat, Nat.shiftRight_eq_div_pow, Nat.shiftRight_eq_div_pow, h]

theorem execCvt666ToRgb_congr {s : State} {v v' : Word} (h : select666 s.cfgRba v = select666 s.cfgRba v') :
    execCvt666ToRgb v s = execCvt666ToRgb v' s := by
  rw [execCvt666ToRgb, execCvt666ToRgb, dec666, dec666, h]

/-- Settles O5: the decoder does not look at an unused word, and each of the three commands reads one field of VALUE. -/
theorem unusedOperandBitsAreIgnored : Obligations.UnusedOperandBitsAreIgnored := by
  refine ⟨fun w0 w1 w2 w1' h => decodeWords_ignores_w1 h w1 w1' w2,
    fun w0 w1 w2 w2' h => decodeWords_ignores_w2 h w1 w2 w2', fun s v v' h => ?_, fun s v v' h => ?_,
    fun s v v' hrba h => ?_, fun s v v' hrba h => ?_⟩
  · change execCvt332To565 v s = execCvt332To565 v' s
    rw [execCvt332To565, execCvt332To565, extractLsb'_congr_of_mod h]
  · change execCvt565ToRgb v s = execCvt565ToRgb v' s
    rw [execCvt565ToRgb, execCvt565ToRgb, extractLsb'_congr_of_mod h]
  · have hselect : select666 s.cfgRba v = select666 s.cfgRba v' := by
      simpa [select666, hrba] using extractLsb'_congr_of_mod h
    exact execCvt666ToRgb_congr hselect
  · have hselect : select666 s.cfgRba v = select666 s.cfgRba v' := by
      simpa [select666, hrba] using extractLsb'_congr_of_div h 18
    exact execCvt666ToRgb_congr hselect

/-! ## Illegal commands -/

theorem decode_eq_error_of_not_legalW0 {data : Command} (h : legalW0 (cmdW0 data) = false) :
    ∃ e, decode data = .error e := by
  cases hd : decode data with
  | error e => exact ⟨e, rfl⟩
  | ok i =>
    have hlegal : legalW0 (cmdW0 data) = true := decodeWords_ok_iff_legalW0.mp ⟨i, hd⟩
    simp [h] at hlegal

theorem step_of_illegal {s : State} {data : Command} {rest : List HostMove} (hi : s.inbox = .command data :: rest)
    (h : legalW0 (cmdW0 data) = false) : step s = .next ((s.taken rest).raised .errIllegal) := by
  obtain ⟨e, hd⟩ := decode_eq_error_of_not_legalW0 h
  simp only [step, hi, hd]
  rfl

/-- Settles O8: ERR_ILLEGAL has status code 1, so it sets bit 1. -/
theorem illegalCommandIsAnswered : Obligations.IllegalCommandIsAnswered :=
  fun _ _ _ hi h => step_of_illegal hi h

/-! ## Pseudo-instructions -/

theorem length_palWritesFrom (k : Nat) (colors : List Color) : (palWritesFrom k colors).length = colors.length := by
  induction colors generalizing k with
  | nil => rfl
  | cons c rest ih => simp [palWritesFrom, ih]

theorem getElem?_palWritesFrom (k j : Nat) (colors : List Color) :
    (palWritesFrom k colors)[j]? = colors[j]?.map (.palWrite (BitVec.ofNat 8 (k + j))) := by
  induction colors generalizing k j with
  | nil => rfl
  | cons c rest ih =>
    cases j with
    | zero => rfl
    | succ j =>
      have hslot : k + (j + 1) = k + 1 + j := by omega
      simp [palWritesFrom, ih, hslot]

/-- Settles O60: after PAL_SIZE, command k + 1 of PALETTE writes color k to slot k. -/
theorem pseudoInstructionsExpand : Obligations.PseudoInstructionsExpand := by
  refine ⟨rfl, rfl, rfl, fun colors _ _ => ⟨?_, rfl, fun k c hc => ?_⟩⟩
  · exact congrArg (· + 1) (length_palWritesFrom 0 colors)
  · have hwrite : (palWritesFrom 0 colors)[k.toNat]? = some (.palWrite k c) := by
      simp [getElem?_palWritesFrom, hc]
    simpa [expandPseudo] using hwrite

end Sys2Proof.Machine
end

section
/-! The color codec (40_codec.md): SCALE and the channel codes, packed words as sums of their fields, and what each CVT
command returns. -/

namespace Sys2Proof.Machine

open Sys2Proof.Safety

/-! ## SCALE and the channel codes (R100, R101) -/

theorem scale_zero (s d : Nat) : scale 0 s d = 0 := by rw [scale, Nat.mul_zero, Nat.zero_div]

theorem scale_self {s : Nat} (hs : 1 ≤ s) (d : Nat) : scale s s d = d := Nat.mul_div_cancel d hs

theorem scale_mono {v v' : Nat} (h : v ≤ v') (s d : Nat) : scale v s d ≤ scale v' s d :=
  Nat.div_le_div_right (Nat.mul_le_mul_left d h)

/-- Settles O53. -/
theorem scaleIsFloorDivision : Obligations.ScaleIsFloorDivision :=
  ⟨fun _ _ _ => rfl, scale_zero, fun _ d hs => scale_self hs d, fun _ _ s d h => scale_mono h s d,
    fun _ _ hv hd => Nat.mul_le_mul hd hv⟩

theorem scale_le {v s : Nat} (h : v ≤ s) (d : Nat) : scale v s d ≤ d :=
  Nat.div_le_of_le_mul (Nat.mul_comm s d ▸ Nat.mul_le_mul_left d h)

/-- A code against the maximum 2^k - 1 fits k bits. -/
theorem scale_lt_two_pow {v s : Nat} (h : v ≤ s) (k : Nat) : scale v s (2 ^ k - 1) < 2 ^ k :=
  Nat.lt_of_le_sub_one (Nat.two_pow_pos k) (scale_le h _)

theorem enc_lt (c : Byte) (k : Nat) : enc c k < 2 ^ k := scale_lt_two_pow (Nat.le_of_lt_succ c.isLt) k

theorem toNat_widenChannel {v max : Nat} (h : v ≤ max) : (widenChannel v max).toNat = 255 * v / max := by
  have hlt : scale v max 255 < 2 ^ 8 := scale_lt_two_pow h 8
  rw [widenChannel, BitVec.toNat_ofNat, Nat.mod_eq_of_lt hlt, scale]

/-! ## Packed words (R102) -/

section
variable {x y z k m n : Nat} (hx : x < 2 ^ k) (hy : y < 2 ^ m) (hz : z < 2 ^ n)

include hy hz in
/-- Fields shifted to their places do not overlap, so their `or` is their sum. -/
theorem shiftLeft_or_eq_add : x <<< (m + n) ||| y <<< n ||| z = x * 2 ^ (m + n) + y * 2 ^ n + z := by
  have hxy : x <<< (m + n) ||| y <<< n = (x <<< m + y) <<< n := by
    rw [Nat.shiftLeft_add_eq_or_of_lt hy, Nat.shiftLeft_or_distrib, Nat.shiftLeft_add]
  rw [hxy, ← Nat.shiftLeft_add_eq_or_of_lt hz, Nat.shiftLeft_eq, Nat.shiftLeft_eq, Nat.add_mul, Nat.mul_assoc,
    ← Nat.pow_add]

include hx hy hz

theorem shiftLeft_or_lt : x <<< (m + n) ||| y <<< n ||| z < 2 ^ (k + m + n) := by
  have hxs : x <<< (m + n) < 2 ^ (k + m + n) := Nat.add_assoc k m n ▸ Nat.shiftLeft_lt hx
  have hys : y <<< n < 2 ^ (k + m + n) :=
    (Nat.shiftLeft_lt hy).trans_le (Nat.pow_le_pow_right two_pos (by omega))
  have hzs : z < 2 ^ (k + m + n) := hz.trans_le (Nat.pow_le_pow_right two_pos (by omega))
  exact Nat.or_lt_two_pow (Nat.or_lt_two_pow hxs hys) hzs

/-- Three fields packed in a container of their total width, read as a RESULT word. -/
theorem setWidth_packed (h : k + m + n ≤ 32) :
    (BitVec.ofNat (k + m + n) (x <<< (m + n) ||| y <<< n ||| z)).setWidth 32 =
      BitVec.ofNat 32 (x * 2 ^ (m + n) + y * 2 ^ n + z) := by
  rw [BitVec.setWidth_ofNat_of_le_of_lt h (shiftLeft_or_lt hx hy hz), shiftLeft_or_eq_add hy hz]

end

theorem packChannels_eq_add (c : Color) (rk gk bk : Nat) :
    packChannels c rk gk bk = enc c.r rk * 2 ^ (gk + bk) + enc c.g gk * 2 ^ bk + enc c.b bk :=
  shiftLeft_or_eq_add (enc_lt c.g gk) (enc_lt c.b bk)

/-- `PACK` in a container of its own width, read as a RESULT word. -/
theorem setWidth_packChannels (c : Color) {rk gk bk : Nat} (h : rk + gk + bk ≤ 32) :
    (BitVec.ofNat (rk + gk + bk) (packChannels c rk gk bk)).setWidth 32 =
      BitVec.ofNat 32 (enc c.r rk * 2 ^ (gk + bk) + enc c.g gk * 2 ^ bk + enc c.b bk) :=
  setWidth_packed (enc_lt c.r rk) (enc_lt c.g gk) (enc_lt c.b bk) h

/-- `ALIGN` of a value that fills its container does not read CFG_RBA (R103). -/
theorem align_self (p n : Nat) (rba : Bool) : align p n n rba = p := by
  cases rba with
  | false => rw [align, if_neg Bool.false_ne_true, Nat.sub_self, Nat.shiftLeft_zero]
  | true => rfl

theorem align_eq_mul (p n t : Nat) (rba : Bool) : align p n t rba = p * if rba then 1 else 2 ^ (t - n) := by
  cases rba with
  | false => exact Nat.shiftLeft_eq p (t - n)
  | true => exact (Nat.mul_one p).symm

/-! ## Widened colors (R108, R109) -/

theorem wordOfColor_eq_ofNat (c : Color) :
    wordOfColor c =
      BitVec.ofNat 32 (c.r.toNat * 2 ^ 24 + c.g.toNat * 2 ^ 16 + c.b.toNat * 2 ^ 8 + c.w.toNat) := by
  have hsum : (wordOfColor c).toNat = c.r.toNat * 2 ^ 24 + c.g.toNat * 2 ^ 16 + c.b.toNat * 2 ^ 8 + c.w.toNat := by
    simp only [wordOfColor, toNat_append_eq_add]
    omega
  rw [← hsum, BitVec.ofNat_toNat, BitVec.setWidth_eq]

/-- The word of a color whose channels are widened from the maxima `mr`, `mg` and `mb`. -/
theorem wordOfColor_widened {r g b mr mg mb : Nat} (hr : r ≤ mr) (hg : g ≤ mg) (hb : b ≤ mb) :
    wordOfColor (.rgb (widenChannel r mr) (widenChannel g mg) (widenChannel b mb)) =
      BitVec.ofNat 32 (255 * r / mr * 2 ^ 24 + 255 * g / mg * 2 ^ 16 + 255 * b / mb * 2 ^ 8) := by
  rw [wordOfColor_eq_ofNat, Color.rgb, toNat_widenChannel hr, toNat_widenChannel hg, toNat_widenChannel hb]
  exact congrArg (BitVec.ofNat 32) (Nat.add_zero _)

theorem toNat_extractLsb'_eq_div {w : Nat} (v : BitVec w) (k n : Nat) :
    (v.extractLsb' k n).toNat = v.toNat / 2 ^ k % 2 ^ n := by
  rw [BitVec.extractLsb'_toNat, Nat.shiftRight_eq_div_pow]

/-- A field of n bits is at most the channel maximum 2^n - 1. -/
theorem toNat_le_max {n : Nat} (v : BitVec n) : v.toNat ≤ 2 ^ n - 1 := Nat.le_sub_one_of_lt v.isLt

theorem toNat_select666 (rba : Bool) (v : Word) :
    (select666 rba v).toNat = if rba then v.toNat % 2 ^ 18 else v.toNat / 2 ^ 14 := by
  cases rba with
  | false =>
    have hlt : v.toNat / 2 ^ 14 < 2 ^ 18 := by omega
    exact (toNat_extractLsb'_eq_div v 14 18).trans (Nat.mod_eq_of_lt hlt)
  | true => rw [select666, if_pos rfl, toNat_extractLsb'_eq_div, Nat.pow_zero, Nat.div_one, if_pos rfl]

/-! ## The codec functions (R103 to R109) -/

/-- The 16 bits fill their container, so `ALIGN` moves nothing. -/
theorem setWidth_to565 (rba : Bool) (c : Color) :
    (to565 rba c).setWidth 32 = BitVec.ofNat 32
      (31 * c.r.toNat / 255 * 2 ^ 11 + 63 * c.g.toNat / 255 * 2 ^ 5 + 31 * c.b.toNat / 255) := by
  rw [to565, align_self]
  exact setWidth_packChannels c (by decide)

theorem to666_eq_ofNat (rba : Bool) (c : Color) :
    to666 rba c = BitVec.ofNat 32
      ((63 * c.r.toNat / 255 * 2 ^ 12 + 63 * c.g.toNat / 255 * 2 ^ 6 + 63 * c.b.toNat / 255) *
        if rba then 1 else 2 ^ 14) := by
  rw [to666, align_eq_mul, packChannels_eq_add]
  rfl

theorem setWidth_to332 (c : Color) :
    (to332 c).setWidth 32 = BitVec.ofNat 32
      (7 * c.r.toNat / 255 * 2 ^ 5 + 7 * c.g.toNat / 255 * 2 ^ 2 + 3 * c.b.toNat / 255) :=
  setWidth_packChannels c (by decide)

theorem setWidth_to233 (c : Color) :
    (to233 c).setWidth 32 = BitVec.ofNat 32
      (3 * c.r.toNat / 255 * 2 ^ 6 + 7 * c.g.toNat / 255 * 2 ^ 3 + 7 * c.b.toNat / 255) :=
  setWidth_packChannels c (by decide)

theorem setWidth_from332To565 (v : Byte) :
    (from332To565 v).setWidth 32 = BitVec.ofNat 32
      (31 * (v.toNat / 32) / 7 * 2 ^ 11 + 63 * (v.toNat / 4 % 8) / 7 * 2 ^ 5 + 31 * (v.toNat % 4) / 3) := by
  have hr : scale (v.extractLsb' 5 3).toNat 7 31 < 2 ^ 5 := scale_lt_two_pow (toNat_le_max _) 5
  have hg : scale (v.extractLsb' 2 3).toNat 7 63 < 2 ^ 6 := scale_lt_two_pow (toNat_le_max _) 6
  have hb : scale (v.extractLsb' 0 2).toNat 3 31 < 2 ^ 5 := scale_lt_two_pow (toNat_le_max _) 5
  have hr3 : (v.extractLsb' 5 3).toNat = v.toNat / 32 := by rw [toNat_extractLsb'_eq_div]; omega
  have hg3 : (v.extractLsb' 2 3).toNat = v.toNat / 4 % 8 := toNat_extractLsb'_eq_div v 2 3
  have hb2 : (v.extractLsb' 0 2).toNat = v.toNat % 4 := by rw [toNat_extractLsb'_eq_div]; omega
  have hpacked := setWidth_packed hr hg hb (by decide)
  rw [← hr3, ← hg3, ← hb2]
  exact hpacked

theorem wordOfColor_dec565 (v : Half) :
    wordOfColor (dec565 v) = BitVec.ofNat 32
      (255 * (v.toNat / 2 ^ 11) / 31 * 2 ^ 24 + 255 * (v.toNat / 2 ^ 5 % 64) / 63 * 2 ^ 16 +
        255 * (v.toNat % 32) / 31 * 2 ^ 8) := by
  have hr : (v.extractLsb' 11 5).toNat = v.toNat / 2 ^ 11 := by rw [toNat_extractLsb'_eq_div]; omega
  have hg : (v.extractLsb' 5 6).toNat = v.toNat / 2 ^ 5 % 64 := toNat_extractLsb'_eq_div v 5 6
  have hb : (v.extractLsb' 0 5).toNat = v.toNat % 32 := by rw [toNat_extractLsb'_eq_div]; omega
  rw [← hr, ← hg, ← hb]
  exact wordOfColor_widened (toNat_le_max _) (toNat_le_max _) (toNat_le_max _)

theorem wordOfColor_dec666 (rba : Bool) (v : Word) {p : Nat} (hp : (select666 rba v).toNat = p) :
    wordOfColor (dec666 rba v) = BitVec.ofNat 32
      (255 * (p / 2 ^ 12) / 63 * 2 ^ 24 + 255 * (p / 2 ^ 6 % 64) / 63 * 2 ^ 16 + 255 * (p % 64) / 63 * 2 ^ 8) := by
  subst hp
  have hr : ((select666 rba v).extractLsb' 12 6).toNat = (select666 rba v).toNat / 2 ^ 12 := by
    rw [toNat_extractLsb'_eq_div]; omega
  have hg : ((select666 rba v).extractLsb' 6 6).toNat = (select666 rba v).toNat / 2 ^ 6 % 64 :=
    toNat_extractLsb'_eq_div _ 6 6
  have hb : ((select666 rba v).extractLsb' 0 6).toNat = (select666 rba v).toNat % 64 := by
    rw [toNat_extractLsb'_eq_div]; omega
  rw [← hr, ← hg, ← hb]
  exact wordOfColor_widened (toNat_le_max _) (toNat_le_max _) (toNat_le_max _)

/-! ## The codec commands (R110 to R117) -/

section
variable (s : State)

theorem exec_cvt565 (c : Color) : exec (.cvt565 c) s = .next (answered s ((to565 s.cfgRba c).setWidth 32)) := rfl

theorem exec_cvt666 (c : Color) : exec (.cvt666 c) s = .next (answered s (to666 s.cfgRba c)) := rfl

theorem exec_cvt332 (c : Color) : exec (.cvt332 c) s = .next (answered s ((to332 c).setWidth 32)) := rfl

theorem exec_cvt233 (c : Color) : exec (.cvt233 c) s = .next (answered s ((to233 c).setWidth 32)) := rfl

theorem exec_cvt332To565 (v : Word) :
    exec (.cvt332To565 v) s = .next (answered s ((from332To565 (v.extractLsb' 0 8)).setWidth 32)) := rfl

theorem exec_cvt565ToRgb (v : Word) :
    exec (.cvt565ToRgb v) s = .next (answered s (wordOfColor (dec565 (v.extractLsb' 0 16)))) := rfl

theorem exec_cvt666ToRgb (v : Word) :
    exec (.cvt666ToRgb v) s = .next (answered s (wordOfColor (dec666 s.cfgRba v))) := rfl

end

/-- A codec command answers OK in every state, with a RESULT that is a function of CFG_RBA alone. -/
theorem exec_codec {i : Instr} (h : groupRange i = (0x40, 0x46)) :
    ∃ result : Bool → Word, ∀ s, exec i s = .next (answered s (result s.cfgRba)) := by
  cases i with
  | cvt565 c => exact ⟨fun rba => (to565 rba c).setWidth 32, fun s => exec_cvt565 s c⟩
  | cvt666 c => exact ⟨fun rba => to666 rba c, fun s => exec_cvt666 s c⟩
  | cvt332 c => exact ⟨fun _ => _, fun s => exec_cvt332 s c⟩
  | cvt233 c => exact ⟨fun _ => _, fun s => exec_cvt233 s c⟩
  | cvt332To565 v => exact ⟨fun _ => _, fun s => exec_cvt332To565 s v⟩
  | cvt565ToRgb v => exact ⟨fun _ => _, fun s => exec_cvt565ToRgb s v⟩
  | cvt666ToRgb v => exact ⟨fun rba => wordOfColor (dec666 rba v), fun s => exec_cvt666ToRgb s v⟩
  | nop | cfgSet | palSize | palWrite | palRead | init | fill | setPixel | setPixelIndex | get565Xy | get565Pos
  | get666Xy | get666Pos | getIndexXy | getIndexPos | bufSize | bufLength | pixelBits | dirtyLo | dirtyHi | resetDirty
  | statusRead => cases h

/-- Settles O26. -/
theorem codecReadsOnlyRba : Obligations.CodecReadsOnlyRba := by
  intro i s s' hgroup hrba
  obtain ⟨result, hexec⟩ := exec_codec hgroup
  exact ⟨result s.cfgRba, hexec s, hrba ▸ hexec s'⟩

/-- Settles O54. -/
theorem cvt565Result : Obligations.Cvt565Result := fun s c => by
  rw [exec_cvt565, setWidth_to565]

/-- Settles O55. -/
theorem cvt666Result : Obligations.Cvt666Result := fun s c => by
  rw [exec_cvt666, to666_eq_ofNat]

/-- Settles O56. -/
theorem cvt332And233Results : Obligations.Cvt332And233Results := fun s c => by
  rw [exec_cvt332, setWidth_to332, exec_cvt233, setWidth_to233]
  exact ⟨rfl, rfl⟩

/-- Settles O57: the two lower fields of VALUE[7:0] are fields of VALUE. -/
theorem cvt332To565Result : Obligations.Cvt332To565Result := fun s v => by
  have hbyte : (v.extractLsb' 0 8).toNat = v.toNat % 256 := by rw [toNat_extractLsb'_eq_div]; omega
  have hg : v.toNat % 256 / 4 % 8 = v.toNat / 4 % 8 := by omega
  have hb : v.toNat % 256 % 4 = v.toNat % 4 := by omega
  rw [exec_cvt332To565, setWidth_from332To565, hbyte, hg, hb]

/-- Settles O58: the two lower fields of VALUE[15:0] are fields of VALUE. -/
theorem cvt565ToRgbResult : Obligations.Cvt565ToRgbResult := fun s v => by
  have hhalf : (v.extractLsb' 0 16).toNat = v.toNat % 2 ^ 16 := by rw [toNat_extractLsb'_eq_div]; omega
  have hg : v.toNat % 2 ^ 16 / 2 ^ 5 % 64 = v.toNat / 2 ^ 5 % 64 := by omega
  have hb : v.toNat % 2 ^ 16 % 32 = v.toNat % 32 := by omega
  rw [exec_cvt565ToRgb, wordOfColor_dec565, hhalf, hg, hb]

/-- Settles O59. -/
theorem cvt666ToRgbResult : Obligations.Cvt666ToRgbResult := fun s v => by
  rw [exec_cvt666ToRgb, wordOfColor_dec666 _ _ (toNat_select666 s.cfgRba v)]

end Sys2Proof.Machine
end

section
/-! The lifecycle and configuration commands (41_lifecycle.md): in which ENG_STATE each is refused, what each writes, and
the pixel bit width that INIT computes (R136). -/

namespace Sys2Proof.Machine

open Sys2Proof.Safety

/-! ## The pixel bit width (R136) -/

/-- If a width within reach of the search is enough, the width it stops at is enough. -/
theorem le_two_pow_widthFrom {psize fuel w : Nat} (h : psize ≤ 2 ^ (w + fuel)) :
    psize ≤ 2 ^ widthFrom psize fuel w := by
  induction fuel generalizing w with
  | zero => exact h
  | succ fuel ih =>
    unfold widthFrom
    split
    · next hw => exact hw
    · exact ih (Nat.add_right_comm w 1 fuel ▸ h)

/-- Settles O34: the search can go on to width 10, and a palette size of 9 bits is below 2^10. -/
theorem bppOfIsTheLeastWidth : Obligations.BppOfIsTheLeastWidth := by
  intro variant psize
  cases variant with
  | v565 | v666 => rfl
  | indexed =>
    have hreach : psize.toNat ≤ 2 ^ (1 + 9) := psize.isLt.le.trans (by decide)
    exact ⟨le_widthFrom _ _ _, le_two_pow_widthFrom hreach, fun v hpos hv => widthFrom_le hv hpos⟩

theorem leastWidth_unique {variant : Variant} {psize v w : Nat} (hv : leastWidth variant psize v)
    (hw : leastWidth variant psize w) : v = w := by
  cases variant with
  | v565 | v666 => exact hv.trans hw.symm
  | indexed =>
    obtain ⟨hvpos, hvle, hvmin⟩ := hv
    obtain ⟨hwpos, hwle, hwmin⟩ := hw
    exact Nat.le_antisymm (hvmin w hwpos hwle) (hwmin v hvpos hvle)

/-! ## Errors and the state check -/

/-- An error sets the sticky bit numbered by its STATUS code (10_state.md R31). -/
theorem raiseStatus_eq_refusedWith (e : Status) (s : State) :
    raiseStatus e s = .next (refusedWith s e (statusCode e).toNat) := by
  cases e with
  | ok | errIllegal | errState | errUnusable | errAlloc | errConfig | errArg | errBounds | errVariant => rfl

section
variable {s : State}

theorem inUninit_of_uninit (hs : s.engState = .uninit) (body : Result) : inUninit s body = body := by
  rw [inUninit, hs]

theorem inUninit_of_ready (hs : s.engState = .ready) (body : Result) :
    inUninit s body = .next (refusedWith s .errState 2) := by
  rw [inUninit, hs]
  exact raiseStatus_eq_refusedWith .errState s

theorem inUninit_of_unusable (hs : s.engState = .unusable) (body : Result) :
    inUninit s body = .next (refusedWith s .errUnusable 3) := by
  rw [inUninit, hs]
  exact raiseStatus_eq_refusedWith .errUnusable s

/-- Each command permitted in UNINIT only begins with the state check (60_exceptions.md R213, R214). -/
theorem exec_eq_inUninit {i : Instr} (hi : permission i = .uninitOnly) (s : State) :
    ∃ body, exec i s = inUninit s body := by
  cases i with
  | cfgSet | palSize | palWrite | init => exact ⟨_, rfl⟩
  | nop | palRead | fill | setPixel | setPixelIndex | get565Xy | get565Pos | get666Xy | get666Pos | getIndexXy
  | getIndexPos | bufSize | bufLength | pixelBits | dirtyLo | dirtyHi | resetDirty | statusRead | cvt565 | cvt666
  | cvt332 | cvt233 | cvt332To565 | cvt565ToRgb | cvt666ToRgb => cases hi

theorem exec_uninitOnly_of_ready {i : Instr} (hi : permission i = .uninitOnly) (hs : s.engState = .ready) :
    exec i s = .next (refusedWith s .errState 2) := by
  obtain ⟨body, hexec⟩ := exec_eq_inUninit hi s
  rw [hexec, inUninit_of_ready hs]

theorem exec_uninitOnly_of_unusable {i : Instr} (hi : permission i = .uninitOnly) (hs : s.engState = .unusable) :
    exec i s = .next (refusedWith s .errUnusable 3) := by
  obtain ⟨body, hexec⟩ := exec_eq_inUninit hi s
  rw [hexec, inUninit_of_unusable hs]

end

/-! ## NOP and the palette slots (R130, R133, R134) -/

theorem palSlot_withPalSlot_same (s : State) (k : Byte) (c : Color) : palSlot (s.withPalSlot k c) k = c :=
  Vector.getElem_set_self k.isLt

theorem palSlot_withPalSlot_other (s : State) {j k : Byte} (h : j ≠ k) (c : Color) :
    palSlot (s.withPalSlot k c) j = palSlot s j :=
  Vector.getElem_set_ne k.isLt j.isLt fun hkj => h (BitVec.eq_of_toNat_eq hkj.symm)

theorem exec_palRead (s : State) (k : Byte) :
    exec (.palRead k) s = .next (answered s (wordOfColor (palSlot s k))) := rfl

/-- Settles O28: the answer of NOP is its whole effect. -/
theorem nopChangesNothing : Obligations.NopChangesNothing := fun _ => rfl

/-- Settles O32. -/
theorem palReadReturnsTheSlot : Obligations.PalReadReturnsTheSlot := fun s k => by
  rw [exec_palRead, wordOfColor_eq_ofNat]
  rfl

/-! ## The configuration commands in UNINIT (R131 to R133) -/

section
variable {s : State} (hs : s.engState = .uninit)
include hs

theorem exec_cfgSet_of_variant {var : BitVec 2} {v : Variant} (hv : variantOfBits var = some v) (rba : Bool) :
    exec (.cfgSet var rba) s = .next ((s.configured v rba).responded .ok 0) := by
  change inUninit s _ = _
  rw [inUninit_of_uninit hs, hv]
  rfl

theorem exec_cfgSet_of_no_variant {var : BitVec 2} (hv : variantOfBits var = none) (rba : Bool) :
    exec (.cfgSet var rba) s = .next (refusedWith s .errArg 6) := by
  change inUninit s _ = _
  rw [inUninit_of_uninit hs, hv]
  exact raiseStatus_eq_refusedWith .errArg s

theorem exec_palSize_of_uninit (n : BitVec 9) :
    exec (.palSize n) s =
      if n.toNat = 0 ∨ 256 < n.toNat then raiseStatus .errArg s else respond 0 (s.withPalSize n) :=
  inUninit_of_uninit hs _

theorem exec_palSize_of_legal {n : BitVec 9} (hpos : 1 ≤ n.toNat) (hle : n.toNat ≤ 256) :
    exec (.palSize n) s = .next ((s.withPalSize n).responded .ok 0) := by
  have hlegal : ¬ (n.toNat = 0 ∨ 256 < n.toNat) := by omega
  rw [exec_palSize_of_uninit hs, if_neg hlegal]
  rfl

theorem exec_palSize_of_illegal {n : BitVec 9} (h : n.toNat = 0 ∨ 256 < n.toNat) :
    exec (.palSize n) s = .next (refusedWith s .errArg 6) := by
  rw [exec_palSize_of_uninit hs, if_pos h]
  exact raiseStatus_eq_refusedWith .errArg s

theorem exec_palWrite_of_uninit (k : Byte) (c : Color) :
    exec (.palWrite k c) s = .next ((s.withPalSlot k c).responded .ok 0) :=
  inUninit_of_uninit hs _

end

/-- Settles O29. -/
theorem cfgSetOutcomes : Obligations.CfgSetOutcomes := fun _ rba =>
  ⟨fun hs => ⟨exec_cfgSet_of_variant hs rfl rba, exec_cfgSet_of_variant hs rfl rba, exec_cfgSet_of_variant hs rfl rba,
      exec_cfgSet_of_no_variant hs rfl rba⟩,
    fun _ => ⟨exec_uninitOnly_of_ready rfl, exec_uninitOnly_of_unusable rfl⟩⟩

/-- Settles O30. -/
theorem palSizeOutcomes : Obligations.PalSizeOutcomes := fun _ _ =>
  ⟨fun hs => exec_palSize_of_legal hs, fun hs => exec_palSize_of_illegal hs,
    exec_uninitOnly_of_ready rfl, exec_uninitOnly_of_unusable rfl⟩

/-- Settles O31: the palette after the write is that of `State.withPalSlot`, whose slot k holds the color. -/
theorem palWriteOutcomes : Obligations.PalWriteOutcomes := by
  intro s k c
  refine ⟨fun hs => ⟨(s.withPalSlot k c).pal, exec_palWrite_of_uninit hs k c, ?_, fun j hj => ?_⟩,
    exec_uninitOnly_of_ready rfl, exec_uninitOnly_of_unusable rfl⟩
  · have hread := exec_palRead (s.withPalSlot k c) k
    rwa [palSlot_withPalSlot_same] at hread
  · exact palSlot_withPalSlot_other s hj c

/-! ## INIT in UNINIT (R135 to R138) -/

theorem allocate_of_cap_lt {s : State} {w h : Half} (hcap : s.cap.val < byteCount w h (bppOf s.cfgVariant s.palSize)) :
    allocate w h s = .next { refusedWith s .errAlloc 4 with engState := .unusable } :=
  (if_pos hcap).trans (raiseStatus_eq_refusedWith .errAlloc s.madeUnusable)

theorem allocate_of_le_cap {s : State} {w h : Half} (hcap : byteCount w h (bppOf s.cfgVariant s.palSize) ≤ s.cap.val) :
    allocate w h s = .next ((s.allocated w h (bppOf s.cfgVariant s.palSize)
      (byteCount w h (bppOf s.cfgVariant s.palSize))).responded .ok 0) := if_neg (Nat.not_lt.mpr hcap)

section
variable {s : State} (hs : s.engState = .uninit) {w h : Half}
include hs

theorem exec_init_of_uninit :
    exec (.init w h) s =
      if w = 0 ∨ h = 0 then raiseStatus .errArg s
      else if s.cfgVariant = .indexed ∧ s.palSize = 0 then raiseStatus .errConfig s
      else allocate w h s :=
  inUninit_of_uninit hs _

theorem exec_init_of_zero_dimension (hdim : w = 0 ∨ h = 0) : exec (.init w h) s = .next (refusedWith s .errArg 6) := by
  rw [exec_init_of_uninit hs, if_pos hdim]
  exact raiseStatus_eq_refusedWith .errArg s

theorem exec_init_of_no_palette (hw : w ≠ 0) (hh : h ≠ 0) (hv : s.cfgVariant = .indexed) (hp : s.palSize = 0) :
    exec (.init w h) s = .next (refusedWith s .errConfig 5) := by
  rw [exec_init_of_uninit hs, if_neg (not_or.mpr ⟨hw, hh⟩), if_pos ⟨hv, hp⟩]
  exact raiseStatus_eq_refusedWith .errConfig s

theorem exec_init_eq_allocate (hw : w ≠ 0) (hh : h ≠ 0) (hpal : s.cfgVariant = .indexed → s.palSize ≠ 0) :
    exec (.init w h) s = allocate w h s := by
  rw [exec_init_of_uninit hs, if_neg (not_or.mpr ⟨hw, hh⟩), if_neg fun ⟨hv, hp⟩ => hpal hv hp]

end

/-- Settles O33: the width `b` of the statement is the one that `bppOf` computes. -/
theorem initOutcomes : Obligations.InitOutcomes := by
  intro s w h
  refine ⟨exec_uninitOnly_of_ready rfl, exec_uninitOnly_of_unusable rfl, fun hs => exec_init_of_zero_dimension hs,
    fun hs => exec_init_of_no_palette hs, fun hs hw hh hpal b hb => ?_⟩
  obtain rfl : b = bppOf s.cfgVariant s.palSize := leastWidth_unique hb (bppOfIsTheLeastWidth _ _)
  rw [exec_init_eq_allocate hs hw hh hpal]
  exact ⟨allocate_of_cap_lt, allocate_of_le_cap⟩

end Sys2Proof.Machine
end

section
/-! The palette search (42_pixel_write.md R150): it finds the lowest matching slot below PAL_SIZE, and its result fits an
index cell. -/

namespace Sys2Proof.Machine

open Sys2Proof.Safety

theorem sameRgb_iff {c e : Color} : sameRgb c e = true ↔ e.r = c.r ∧ e.g = c.g ∧ e.b = c.b := by
  simp only [sameRgb, Bool.and_eq_true, beq_iff_eq, and_assoc]

theorem length_take_pal (s : State) (n : Nat) : (s.pal.toList.take n).length = min n 256 := by
  rw [List.length_take, Vector.length_toList]

/-- The palette as the search reads it, slot by slot. -/
theorem getElem_take_pal (s : State) {n : Nat} (k : Byte) (hk : k.toNat < (s.pal.toList.take n).length) :
    (s.pal.toList.take n)[k.toNat] = palSlot s k := by
  rw [List.getElem_take, Vector.getElem_toList, palSlot]

/-- A list index of the search is a palette slot. -/
theorem exists_slot_of_lt_length_take_pal {s : State} {n j : Nat} (hj : j < (s.pal.toList.take n).length) :
    ∃ k : Byte, k.toNat = j := by
  rw [length_take_pal] at hj
  exact ⟨BitVec.ofNatLT j (by omega), rfl⟩

/-- The search stops at the first slot below PAL_SIZE that matches. -/
theorem palFind_eq_of_lowest {s : State} {c : Color} {k : Byte} (hk : k.toNat < s.palSize.toNat)
    (hmatch : sameRgb c (palSlot s k) = true) (hlowest : ∀ j : Byte, j < k → ¬ sameRgb c (palSlot s j) = true) :
    palFind s c = k.toNat := by
  have hlen : k.toNat < (s.pal.toList.take s.palSize.toNat).length := by
    rw [length_take_pal]
    exact lt_min hk k.isLt
  have hfind : (s.pal.toList.take s.palSize.toNat).findIdx? (sameRgb c) = some k.toNat := by
    refine List.findIdx?_eq_some_iff_getElem.mpr ⟨hlen, ?_, fun j hj => ?_⟩
    · rwa [getElem_take_pal]
    · obtain ⟨i, rfl⟩ := exists_slot_of_lt_length_take_pal (hj.trans hlen)
      rw [getElem_take_pal]
      exact hlowest i (BitVec.lt_def.mpr hj)
  rw [palFind, hfind, Option.getD_some]

theorem palFind_eq_zero_of_no_match {s : State} {c : Color}
    (hnone : ∀ k : Byte, k.toNat < s.palSize.toNat → ¬ sameRgb c (palSlot s k) = true) : palFind s c = 0 := by
  have hfind : (s.pal.toList.take s.palSize.toNat).findIdx? (sameRgb c) = none := by
    refine List.findIdx?_eq_none_iff.mpr fun e he => ?_
    obtain ⟨j, hj, rfl⟩ := List.mem_iff_getElem.mp he
    obtain ⟨k, rfl⟩ := exists_slot_of_lt_length_take_pal hj
    rw [getElem_take_pal]
    exact Bool.eq_false_iff.mpr (hnone k (hj.trans_le (List.length_take_le _ _)))
  rw [palFind, hfind, Option.getD_none]

/-- The search result is a slot below PAL_SIZE, unless the palette is empty. -/
theorem palFind_lt {s : State} (hpal : s.palSize ≠ 0) (c : Color) : palFind s c < s.palSize.toNat := by
  have hpos : 0 < s.palSize.toNat := Nat.pos_of_ne_zero fun h => hpal (BitVec.eq_of_toNat_eq h)
  rw [palFind]
  cases hfind : (s.pal.toList.take s.palSize.toNat).findIdx? (sameRgb c) with
  | none => exact hpos
  | some j =>
    obtain ⟨hj, -⟩ := List.findIdx?_eq_some_iff_getElem.mp hfind
    exact hj.trans_le (List.length_take_le _ _)

/-- Settles O40: `sameRgb` is the comparison of the statement. -/
theorem paletteSearchFindsTheLowestMatch : Obligations.PaletteSearchFindsTheLowestMatch := by
  intro s c
  exact ⟨fun k hk hr hg hb hlowest => palFind_eq_of_lowest hk (sameRgb_iff.mpr ⟨hr, hg, hb⟩)
      fun j hj => mt sameRgb_iff.mp (hlowest j hj),
    fun hnone => palFind_eq_zero_of_no_match fun k hk => mt sameRgb_iff.mp (hnone k hk)⟩

end Sys2Proof.Machine
end

section
/-! The pixel write commands (42_pixel_write.md R151 to R155): the cells that a command writes, what it leaves in storage,
and the rectangle it sets. -/

namespace Sys2Proof.Machine

open Sys2Proof.Safety

/-! ## The dirty rectangle -/

/-- Settles O41: the widened rectangle takes `minHalf` and `maxHalf`, which are the min and max of the coordinates. -/
theorem pixelWriteWidensByMinAndMax : Obligations.PixelWriteWidensByMinAndMax := by
  intro s t x y i hinv hs hx hy hi h
  rw [dirty_of_pixelWrite hinv hs hx hy hi h]
  exact ⟨toNat_minHalf _ _, toNat_minHalf _ _, toNat_maxHalf _ _, toNat_maxHalf _ _⟩

theorem widenRect_eq_ofNat (d : DirtyRect) (x y : Half) :
    widenRect d x y =
      ⟨BitVec.ofNat 16 (min d.xl.toNat x.toNat), BitVec.ofNat 16 (min d.yl.toNat y.toNat),
        BitVec.ofNat 16 (max d.xh.toNat x.toNat), BitVec.ofNat 16 (max d.yh.toNat y.toNat)⟩ := by
  simp only [widenRect, ← toNat_minHalf, ← toNat_maxHalf, BitVec.ofNat_toNat, BitVec.setWidth_eq]

theorem sub_one_eq_ofNat {a : Half} (h : a ≠ 0) : a - 1 = BitVec.ofNat 16 (a.toNat - 1) := by
  bv_omega

theorem fullFrame_eq_ofNat {width height : Half} (hw : width ≠ 0) (hh : height ≠ 0) :
    fullFrame width height = ⟨0, 0, BitVec.ofNat 16 (width.toNat - 1), BitVec.ofNat 16 (height.toNat - 1)⟩ := by
  rw [fullFrame, sub_one_eq_ofNat hw, sub_one_eq_ofNat hh]

/-! ## Storage bits and bytes -/

/-- A byte is its eight storage bits (20_memory.md R51). -/
theorem memRead_eq_of_storageBit_eq {m m' : Memory} {a : Nat}
    (h : ∀ g, 8 * a ≤ g → g < 8 * a + 8 → storageBit m g = storageBit m' g) : memRead m a = memRead m' a := by
  refine BitVec.eq_of_getLsbD_eq fun k hk => ?_
  rw [getLsbD_memRead _ _ hk, getLsbD_memRead _ _ hk]
  exact h _ (by omega) (by omega)

/-- The loop of FILL over `n` slots leaves the value in each of their cells. -/
theorem storageBit_fillCells_cell {variant : Variant} {m : Memory} {w : Nat} (hwf : Memory.wf m = true)
    (hw : variant = .indexed → w ≤ 8) (v : Nat) {n p k : Nat} (hp : p < n) (hk : k < w) :
    storageBit (fillCells variant m w v n) (p * w + k) = v.testBit k := by
  induction n with
  | zero => omega
  | succ n ih =>
    rw [fillCells, storageBit_storeCell (fillCells_wf hwf variant w v n) hw]
    obtain hlast | rfl := Nat.lt_succ_iff_lt_or_eq.mp hp
    · have hbefore : p * w + w ≤ n * w := by
        rw [← Nat.succ_mul]
        exact Nat.mul_le_mul_right w hlast
      rw [if_neg (by omega), ih hlast]
    · rw [if_pos (by omega), Nat.add_sub_cancel_left]

section
variable {s : State} (hinv : Inv s) (hs : s.engState = .ready)
include hinv hs

theorem storageBit_stored_cell (p v : Nat) {k : Nat} (hk : k < s.bpp.toNat) :
    storageBit (stored s p v) (p * s.bpp.toNat + k) = v.testBit k := by
  rw [storageBit_stored hinv hs, if_pos (by omega), Nat.add_sub_cancel_left]

theorem storageBit_stored_of_outsideCell {p g : Nat} (v : Nat) (hg : outsideCell s p g) :
    storageBit (stored s p v) g = storageBit s.storage g := by
  rw [outsideCell] at hg
  rw [storageBit_stored hinv hs, if_neg (by omega)]

theorem memRead_stored_of_outsideCellBytes {p a : Nat} (v : Nat) (ha : outsideCellBytes s p a) :
    memRead (stored s p v) a = memRead s.storage a := by
  rw [outsideCellBytes] at ha
  refine memRead_eq_of_storageBit_eq fun g hlo hhi => storageBit_stored_of_outsideCell hinv hs v ?_
  rw [outsideCell]
  omega

/-- The cells of the buffer lie in its bytes (20_memory.md R52, R63). -/
theorem bufLen_mul_bpp_le : s.bufLen.toNat * s.bpp.toNat ≤ 8 * s.bufSize.toNat := by
  obtain ⟨-, -, -, -, hlen, hsize, -⟩ := hinv.buffer hs
  rw [hlen, hsize]
  omega

theorem memRead_filled_of_le (v : Nat) {a : Nat} (ha : s.bufSize.toNat ≤ a) :
    memRead (filled s v) a = memRead s.storage a := by
  have hcells := bufLen_mul_bpp_le hinv hs
  exact memRead_eq_of_storageBit_eq fun g hlo _ => storageBit_filled_of_le hinv hs v (by omega)

theorem exec_fill_of_inv (c : Color) :
    exec (.fill c) s = .next
      (((s.withStorage (filled s (storeVal s c))).withDirty (fullFrame s.width s.height)).responded .ok 0) := by
  change inReady s (withEveryCell s _) = _
  rw [inReady, hs, withEveryCell_of_inv hinv hs]
  rfl

end

/-! ## The commands -/

theorem pixelWritten_eq (s : State) (x y : Half) (v : Nat) :
    s.pixelWritten x y v = { s with
      storage := stored s (slotOf s x y) v
      dirty := ⟨BitVec.ofNat 16 (min s.dirty.xl.toNat x.toNat), BitVec.ofNat 16 (min s.dirty.yl.toNat y.toNat),
        BitVec.ofNat 16 (max s.dirty.xh.toNat x.toNat), BitVec.ofNat 16 (max s.dirty.yh.toNat y.toNat)⟩
      rsp := some ⟨.ok, 0⟩ } := by
  rw [← widenRect_eq_ofNat]
  rfl

/-- Settles O37: the storage after the command is that of `stored`. -/
theorem setPixelWritesItsCell : Obligations.SetPixelWritesItsCell := by
  intro s x y c hinv hs hx hy
  exact ⟨_, (exec_setPixel_of_inv hinv hs hx hy c).trans (congrArg _ (pixelWritten_eq s x y _)),
    fun k hk => storageBit_stored_cell hinv hs _ _ hk, fun g hg => storageBit_stored_of_outsideCell hinv hs _ hg,
    fun a ha => memRead_stored_of_outsideCellBytes hinv hs _ ha⟩

/-- Settles O38: the index is stored as the number that its bits spell. -/
theorem setPixelIndexWritesItsCell : Obligations.SetPixelIndexWritesItsCell := by
  intro s x y index hinv hs hv hx hy
  refine ⟨_, (exec_setPixelIndex_of_inv hinv hs hv hx hy index).trans (congrArg _ (pixelWritten_eq s x y _)),
    fun k hk => ?_, fun g hg => storageBit_stored_of_outsideCell hinv hs _ hg,
    fun a ha => memRead_stored_of_outsideCellBytes hinv hs _ ha⟩
  rw [storageBit_stored_cell hinv hs _ _ hk, BitVec.testBit_toNat]

/-- Settles O39: a frame of the invariant has no zero dimension, so its last coordinates are WIDTH - 1 and HEIGHT - 1. -/
theorem fillWritesEveryCell : Obligations.FillWritesEveryCell := by
  intro s c hinv hs
  obtain ⟨hw, hh, -⟩ := hinv.buffer hs
  refine ⟨filled s (storeVal s c), ?_, fun p k hp hk => ?_, fun g hg => storageBit_filled_of_le hinv hs _ hg,
    fun a ha => memRead_filled_of_le hinv hs _ ha⟩
  · rw [exec_fill_of_inv hinv hs, fullFrame_eq_ofNat hw hh]
    rfl
  · exact storageBit_fillCells_cell hinv.storageCanonical (bpp_le_eight_of_indexed hinv hs) _ hp hk

end Sys2Proof.Machine
end

section
/-! A color written is read back in the native form of its variant (42_pixel_write.md R151; 43_pixel_read.md R171, R172,
R177). -/

namespace Sys2Proof.Machine

open Sys2Proof.Safety

section
variable {s : State} (hinv : Inv s) (hs : s.engState = .ready)
include hinv hs

/-! ## Cell values fit their cells -/

theorem bpp_eq_sixteen_of_v565 (hv : s.cfgVariant = .v565) : s.bpp.toNat = 16 := by
  obtain ⟨-, -, hbpp, -⟩ := hinv.buffer hs
  rw [hbpp, hv, bppOf]

theorem bpp_eq_thirtyTwo_of_v666 (hv : s.cfgVariant = .v666) : s.bpp.toNat = 32 := by
  obtain ⟨-, -, hbpp, -⟩ := hinv.buffer hs
  rw [hbpp, hv, bppOf]

/-- Every slot of the palette has its number in an index cell (41_lifecycle.md R136). -/
theorem palSize_le_two_pow_bpp (hv : s.cfgVariant = .indexed) : s.palSize.toNat ≤ 2 ^ s.bpp.toNat := by
  obtain ⟨-, -, hbpp, -⟩ := hinv.buffer hs
  obtain ⟨-, hle, -⟩ := bppOfIsTheLeastWidth .indexed s.palSize
  rwa [hbpp, hv]

theorem storeVal_lt_two_pow_bpp (c : Color) : storeVal s c < 2 ^ s.bpp.toNat := by
  obtain ⟨-, -, -, hpal, -⟩ := hinv.buffer hs
  cases hv : s.cfgVariant with
  | v565 =>
    rw [storeVal, hv, bpp_eq_sixteen_of_v565 hinv hs hv]
    exact (to565 s.cfgRba c).isLt
  | v666 =>
    rw [storeVal, hv, bpp_eq_thirtyTwo_of_v666 hinv hs hv]
    exact (to666 s.cfgRba c).isLt
  | indexed =>
    rw [storeVal, hv]
    exact (palFind_lt (hpal hv) c).trans_le (palSize_le_two_pow_bpp hinv hs hv)

/-- The cell of a pixel that is set holds the value of its color, whole. -/
theorem cellBits_pixelWritten_storeVal (x y : Half) (c : Color) :
    cellBits (s.pixelWritten x y (storeVal s c)) (slotOf s x y) = storeVal s c := by
  rw [cellBits_pixelWritten_same hinv hs, Nat.mod_eq_of_lt (storeVal_lt_two_pow_bpp hinv hs c)]

/-! ## The coordinate reads in frame -/

theorem inReady_atPixel_of_inv {x y : Half} (hx : x < s.width) (hy : y < s.height) (body : Nat → Result) :
    inReady s (atPixel s x y body) = body (slotOf s x y) := by
  have hframe : inFrame s x y = true := by simp [inFrame, hx, hy]
  rw [inReady, hs, atPixel_of_inv hinv hs, if_pos hframe]

theorem exec_get565Xy_of_inv {x y : Half} (hx : x < s.width) (hy : y < s.height) :
    exec (.get565Xy x y) s = .next (answered s ((read565 s (slotOf s x y)).setWidth 32)) :=
  inReady_atPixel_of_inv hinv hs hx hy _

theorem exec_get666Xy_of_inv {x y : Half} (hx : x < s.width) (hy : y < s.height) :
    exec (.get666Xy x y) s = .next (answered s (read666 s (slotOf s x y))) :=
  inReady_atPixel_of_inv hinv hs hx hy _

end

/-! ## Reading a cell that holds the value of a color -/

theorem read565_of_v565 {s : State} (hv : s.cfgVariant = .v565) (p : Nat) :
    read565 s p = BitVec.ofNat 16 (cellBits s p) := by
  rw [read565, hv]

theorem read666_of_v666 {s : State} (hv : s.cfgVariant = .v666) (p : Nat) :
    read666 s p = BitVec.ofNat 32 (cellBits s p) := by
  rw [read666, hv]

theorem ofNat_storeVal_of_v565 {s : State} (hv : s.cfgVariant = .v565) (c : Color) :
    BitVec.ofNat 16 (storeVal s c) = to565 s.cfgRba c := by
  rw [storeVal, hv, BitVec.ofNat_toNat, BitVec.setWidth_eq]

theorem ofNat_storeVal_of_v666 {s : State} (hv : s.cfgVariant = .v666) (c : Color) :
    BitVec.ofNat 32 (storeVal s c) = to666 s.cfgRba c := by
  rw [storeVal, hv, BitVec.ofNat_toNat, BitVec.setWidth_eq]

theorem storeVal_of_indexed {s : State} (hv : s.cfgVariant = .indexed) (c : Color) : storeVal s c = palFind s c := by
  rw [storeVal, hv]

/-- Settles O47: the write keeps the invariant, so the read after it loads the cell, which holds the color's value. -/
theorem setPixelReadsBack : Obligations.SetPixelReadsBack := by
  intro s x y c hinv hs hx hy
  have hinv' : Inv (s.pixelWritten x y (storeVal s c)) := inv_pixelWritten hinv hs hx hy _
  have hcell : cellBits (s.pixelWritten x y (storeVal s c)) (slotOf (s.pixelWritten x y (storeVal s c)) x y) =
      storeVal s c := cellBits_pixelWritten_storeVal hinv hs x y c
  refine ⟨_, exec_setPixel_of_inv hinv hs hx hy c, fun hv => ⟨_, exec_cvt565 s c, ?_⟩,
    fun hv => ⟨_, exec_cvt666 s c, ?_⟩, fun hv => ?_⟩
  · rw [exec_get565Xy_of_inv hinv' hs hx hy, read565_of_v565 (s := s.pixelWritten x y _) hv, hcell,
      ofNat_storeVal_of_v565 hv]
  · rw [exec_get666Xy_of_inv hinv' hs hx hy, read666_of_v666 (s := s.pixelWritten x y _) hv, hcell,
      ofNat_storeVal_of_v666 hv]
  · rw [exec_getIndexXy_of_inv hinv' hs hv hx hy, hcell, storeVal_of_indexed hv]

end Sys2Proof.Machine
end

section
/-! The pixel read commands (43_pixel_read.md): each answers the reading of the value that its cell holds, and changes
nothing else (R170 to R179). -/

namespace Sys2Proof.Machine

open Sys2Proof.Safety

/-! ## Errors -/

theorem raised_eq_refusedWith (s : State) (e : Status) : s.raised e = refusedWith s e (statusCode e).toNat :=
  Host.Outcome.next.inj (raiseStatus_eq_refusedWith e s)

/-- Settles O25: of the ways in which a command completes, a read command has only the answer and the error. -/
theorem pixelReadsChangeNothing : Obligations.PixelReadsChangeNothing := by
  intro i s t hgroup h
  cases exec_next h with
  | answered _ v => exact .inl ⟨v, rfl⟩
  | raised _ e he => exact .inr ⟨e, he, raised_eq_refusedWith s e⟩
  | configured | paletteSized | paletteWritten | allocFailed | allocated | filled | pixelSet | indexSet | dirtyReset =>
    cases hgroup

/-! ## The value of a cell -/

/-- PixGet gives the one value whose bits are those of the cell (20_memory.md R52, R54). -/
theorem cellHolds_iff {s : State} {p v : Nat} : cellHolds s p v ↔ v = cellBits s p := by
  constructor
  · rintro ⟨hlt, hbits⟩
    refine Nat.eq_of_testBit_eq fun j => ?_
    rw [cellBits, testBit_pixGet]
    by_cases hj : j < s.bpp.toNat
    · rw [hbits j hj, decide_eq_true hj, Bool.true_and]
    · have hle : 2 ^ s.bpp.toNat ≤ 2 ^ j := Nat.pow_le_pow_right two_pos (Nat.le_of_not_lt hj)
      rw [Nat.testBit_lt_two_pow (hlt.trans_le hle), decide_eq_false hj, Bool.false_and]
  · rintro rfl
    refine ⟨Nat.lt_pow_two_of_testBit _ fun j hj => ?_, fun k hk => ?_⟩
    · rw [cellBits, testBit_pixGet, decide_eq_false (Nat.not_lt.mpr hj), Bool.false_and]
    · rw [cellBits, testBit_pixGet, decide_eq_true hk, Bool.true_and]

theorem cellHolds_cellBits (s : State) (p : Nat) : cellHolds s p (cellBits s p) := cellHolds_iff.mpr rfl

/-! ## The reads of a READY state of the invariant -/

section
variable {s : State} (hinv : Inv s) (hs : s.engState = .ready)
include hinv hs

/-- A 565 code fills its cell, so the zero-extended reading of a V565 cell is its whole value. -/
theorem setWidth_read565 (p : Nat) : (read565 s p).setWidth 32 = read565Of s (cellBits s p) := by
  cases hv : s.cfgVariant with
  | v565 =>
    obtain ⟨hlt, -⟩ := cellHolds_cellBits s p
    rw [bpp_eq_sixteen_of_v565 hinv hs hv] at hlt
    rw [read565_of_v565 hv, read565Of, hv, BitVec.setWidth_ofNat_of_le_of_lt (by decide) hlt]
  | v666 => rw [read565, read565Of, hv]
  | indexed => rw [read565, read565Of, hv, rawIndex_eq_cellBits hinv hs hv, palColor]

theorem read666_eq_read666Of (p : Nat) : read666 s p = read666Of s (cellBits s p) := by
  cases hv : s.cfgVariant with
  | v565 | v666 => rw [read666, read666Of, hv]
  | indexed => rw [read666, read666Of, hv, rawIndex_eq_cellBits hinv hs hv, palColor]

theorem inReady_atPosition_of_inv {pos : Word} (hpos : pos < s.bufLen) (body : Nat → Result) :
    inReady s (atPosition s pos body) = body pos.toNat := by
  rw [inReady, hs, atPosition_of_inv hinv hs, if_pos hpos]

theorem exec_get565Pos_of_inv {pos : Word} (hpos : pos < s.bufLen) :
    exec (.get565Pos pos) s = .next (answered s (read565Of s (cellBits s pos.toNat))) := by
  rw [← setWidth_read565 hinv hs]
  exact inReady_atPosition_of_inv hinv hs hpos _

theorem exec_get666Pos_of_inv {pos : Word} (hpos : pos < s.bufLen) :
    exec (.get666Pos pos) s = .next (answered s (read666Of s (cellBits s pos.toNat))) := by
  rw [← read666_eq_read666Of hinv hs]
  exact inReady_atPosition_of_inv hinv hs hpos _

end

/-- Settles O43. -/
theorem get565ReadsItsCell : Obligations.Get565ReadsItsCell := by
  intro s hinv hs
  refine ⟨fun pos hpos => ⟨_, cellHolds_cellBits s _, exec_get565Pos_of_inv hinv hs hpos⟩,
    fun x y hx hy => ⟨_, cellHolds_cellBits s (slotOf s x y), ?_⟩⟩
  rw [exec_get565Xy_of_inv hinv hs hx hy, setWidth_read565 hinv hs]

/-- Settles O44. -/
theorem get666ReadsItsCell : Obligations.Get666ReadsItsCell := by
  intro s hinv hs
  refine ⟨fun pos hpos => ⟨_, cellHolds_cellBits s _, exec_get666Pos_of_inv hinv hs hpos⟩,
    fun x y hx hy => ⟨_, cellHolds_cellBits s (slotOf s x y), ?_⟩⟩
  rw [exec_get666Xy_of_inv hinv hs hx hy, read666_eq_read666Of hinv hs]

/-- Settles O45. -/
theorem getIndexReadsItsCell : Obligations.GetIndexReadsItsCell := fun s hinv hs hv =>
  ⟨fun _ hpos => ⟨_, cellHolds_cellBits s _, exec_getIndexPos_of_inv hinv hs hv hpos⟩,
    fun x y hx hy => ⟨_, cellHolds_cellBits s (slotOf s x y), exec_getIndexXy_of_inv hinv hs hv hx hy⟩⟩

/-! ## Reading after FILL -/

/-- The state that FILL leaves, `v` being the value it stores (42_pixel_write.md R153). -/
def State.frameFilled (s : State) (v : Nat) : State :=
  ((s.withStorage (filled s v)).withDirty (fullFrame s.width s.height)).responded .ok 0

@[simp] theorem read565Of_frameFilled (s : State) (u v : Nat) : read565Of (s.frameFilled u) v = read565Of s v := rfl

@[simp] theorem read666Of_frameFilled (s : State) (u v : Nat) : read666Of (s.frameFilled u) v = read666Of s v := rfl

theorem inv_frameFilled {s : State} (hinv : Inv s) (hs : s.engState = .ready) (v : Nat) : Inv (s.frameFilled v) :=
  inv_responded (inv_filled hinv hs v) 0

/-- FILL leaves the value of its color, whole, in the cell of every slot of the buffer. -/
theorem cellBits_frameFilled_storeVal {s : State} (hinv : Inv s) (hs : s.engState = .ready) (c : Color) {p : Nat}
    (hp : p < s.bufLen.toNat) : cellBits (s.frameFilled (storeVal s c)) p = storeVal s c := by
  have hholds : cellHolds (s.frameFilled (storeVal s c)) p (storeVal s c) :=
    ⟨storeVal_lt_two_pow_bpp hinv hs c, fun _ hk =>
      (storageBit_fillCells_cell hinv.storageCanonical (bpp_le_eight_of_indexed hinv hs) _ hp hk).symm⟩
  exact (cellHolds_iff.mp hholds).symm

theorem read565Of_storeVal_of_v565 {s : State} (hv : s.cfgVariant = .v565) (c : Color) :
    read565Of s (storeVal s c) = (to565 s.cfgRba c).setWidth 32 := by
  rw [read565Of, storeVal, hv, BitVec.ofNat_toNat]

theorem read666Of_storeVal_of_v666 {s : State} (hv : s.cfgVariant = .v666) (c : Color) :
    read666Of s (storeVal s c) = to666 s.cfgRba c := by
  rw [← ofNat_storeVal_of_v666 hv, read666Of, hv]

/-- The search result lies below PAL_SIZE, so the lookup does not clamp it (43_pixel_read.md R170). -/
theorem read565Of_storeVal_of_indexed {s : State} (hv : s.cfgVariant = .indexed) (hpal : s.palSize ≠ 0) (c : Color) :
    read565Of s (storeVal s c) = (to565 s.cfgRba (palSlot s (BitVec.ofNat 8 (palFind s c)))).setWidth 32 := by
  rw [read565Of, storeVal, hv, if_neg (Nat.not_le.mpr (palFind_lt hpal c))]

/-- Settles O48: FILL keeps the invariant and the configuration, so a read after it loads the value of the color. -/
theorem fillReadsBackEverywhere : Obligations.FillReadsBackEverywhere := by
  intro s c hinv hs
  obtain ⟨-, -, -, hpal, -⟩ := hinv.buffer hs
  have hinv' : Inv (s.frameFilled (storeVal s c)) := inv_frameFilled hinv hs _
  refine ⟨s.frameFilled (storeVal s c), exec_fill_of_inv hinv hs c, fun pos hpos => ?_⟩
  have hcell := cellBits_frameFilled_storeVal hinv hs c (BitVec.lt_def.mp hpos)
  refine ⟨fun hv => ⟨_, exec_cvt565 s c, ?_⟩, fun hv => ⟨_, exec_cvt666 s c, ?_⟩,
    fun hv => ⟨?_, _, exec_cvt565 s _, ?_⟩⟩
  · rw [exec_get565Pos_of_inv hinv' hs hpos, hcell, read565Of_frameFilled, read565Of_storeVal_of_v565 hv]
  · rw [exec_get666Pos_of_inv hinv' hs hpos, hcell, read666Of_frameFilled, read666Of_storeVal_of_v666 hv]
  · rw [exec_getIndexPos_of_inv hinv' hs hv hpos, hcell, storeVal_of_indexed hv]
  · rw [exec_get565Pos_of_inv hinv' hs hpos, hcell, read565Of_frameFilled,
      read565Of_storeVal_of_indexed hv (hpal hv)]

end Sys2Proof.Machine
end

section
/-! The query commands and RESET_DIRTY (44_query_dirty.md R190 to R195). -/

namespace Sys2Proof.Machine

open Sys2Proof.Safety

/-! ## The words of the dirty rectangle (R193, R194) -/

theorem half_append_eq_ofNat (hi lo : Half) : hi ++ lo = BitVec.ofNat 32 (hi.toNat * 2 ^ 16 + lo.toNat) := by
  rw [← toNat_append_eq_add, BitVec.ofNat_toNat, BitVec.setWidth_eq]

theorem dirtyLoWord_eq_ofNat (d : DirtyRect) : dirtyLoWord d = BitVec.ofNat 32 (d.xl.toNat * 2 ^ 16 + d.yl.toNat) :=
  half_append_eq_ofNat d.xl d.yl

theorem dirtyHiWord_eq_ofNat (d : DirtyRect) : dirtyHiWord d = BitVec.ofNat 32 (d.xh.toNat * 2 ^ 16 + d.yh.toNat) :=
  half_append_eq_ofNat d.xh d.yh

/-! ## The queries (R190 to R194) -/

section
variable (s : State)

theorem exec_bufSize : exec .bufSize s = .next (answered s s.bufSize) := rfl

theorem exec_bufLength : exec .bufLength s = .next (answered s s.bufLen) := rfl

theorem exec_pixelBits : exec .pixelBits s = .next (answered s (s.bpp.setWidth 32)) := rfl

theorem exec_dirtyLo : exec .dirtyLo s = .next (answered s (dirtyLoWord s.dirty)) := rfl

theorem exec_dirtyHi : exec .dirtyHi s = .next (answered s (dirtyHiWord s.dirty)) := rfl

end

/-- Settles O49: BPP is zero-extended, and each dirty query answers the two halves side by side. -/
theorem queryResults : Obligations.QueryResults := by
  intro s
  refine ⟨exec_bufSize s, exec_bufLength s, ?pixelBits, ?dirtyLo, ?dirtyHi⟩
  case pixelBits => rw [exec_pixelBits, BitVec.ofNat_toNat]
  case dirtyLo => rw [exec_dirtyLo, dirtyLoWord_eq_ofNat]
  case dirtyHi => rw [exec_dirtyHi, dirtyHiWord_eq_ofNat]

/-! ## The state check of the commands permitted in READY only (60_exceptions.md R213, R214) -/

section
variable {s : State}

theorem inReady_of_ready (hs : s.engState = .ready) (body : Result) : inReady s body = body := by
  rw [inReady, hs]

theorem inReady_of_uninit (hs : s.engState = .uninit) (body : Result) :
    inReady s body = .next (refusedWith s .errState 2) := by
  rw [inReady, hs]
  exact raiseStatus_eq_refusedWith .errState s

theorem inReady_of_unusable (hs : s.engState = .unusable) (body : Result) :
    inReady s body = .next (refusedWith s .errUnusable 3) := by
  rw [inReady, hs]
  exact raiseStatus_eq_refusedWith .errUnusable s

end

/-! ## RESET_DIRTY (R195) -/

theorem exec_resetDirty (s : State) : exec .resetDirty s = inReady s (respond 0 (s.withDirty .empty)) := rfl

/-- Settles O50: the rectangle that READY leaves is the empty one of 10_state.md R29. -/
theorem resetDirtyOutcomes : Obligations.ResetDirtyOutcomes := by
  intro s
  rw [exec_resetDirty]
  refine ⟨fun hs => ?ready, fun hs => inReady_of_uninit hs _, fun hs => inReady_of_unusable hs _⟩
  case ready =>
    rw [inReady_of_ready hs]
    rfl

end Sys2Proof.Machine
end

section
/-! The exceptions (60_exceptions.md): which error a command reports, what an error leaves, and that under the invariant
every step answers a next state. The one fact about the commands is `exec_answers`: a command that completes reports the
first error that applies to it, in every state, reachable or not. -/

namespace Sys2Proof.Machine

open Sys2Proof.Safety

/-! ## Status codes and the sticky bits (R210, R215) -/

/-- Settles O20: the table of R210, read off `statusCode`. -/
theorem statusCodes : Obligations.StatusCodes := ⟨rfl, rfl, rfl, rfl, rfl, rfl, rfl, rfl, rfl⟩

theorem getLsbD_stickyWith (sticky : BitVec 16) (e : Status) (n : Nat) :
    (stickyWith sticky e).getLsbD n = (sticky.getLsbD n || decide (n = (statusCode e).toNat)) := by
  have hcode : (statusCode e).toNat < 16 := (statusCode e).isLt
  simp only [stickyWith, BitVec.getLsbD_or, BitVec.getLsbD_shiftLeft, BitVec.getLsbD_one]
  congr 1
  by_cases hn : n = (statusCode e).toNat
  · simp [hn, hcode]
  · simp [hn]
    omega

/-! ## The steps without a command (R225) -/

theorem taken_nil_of_inbox_nil {s : State} (hi : s.inbox = []) : s.taken [] = { s with rsp := none } := by
  rw [← hi]
  rfl

/-- Settles O9: with no move to take, taking the rest of the moves keeps them. -/
theorem idleStepChangesNothing : Obligations.IdleStepChangesNothing := by
  intro s hi
  have hstep : step s = .next (s.taken []) := by
    simp only [step, hi, idle]
  rw [hstep, taken_nil_of_inbox_nil hi]

/-! ## Every command completes (R217)

Each shared check answers a next state if its body does; those that test CAP do so in a READY state of the invariant. -/

/-- The outcome is a next state: neither a fault nor a refusal. -/
def HasNext (r : Result) : Prop := ∃ t, r = .next t

theorem hasNext_respond (v : Word) (s : State) : HasNext (respond v s) := ⟨_, rfl⟩

theorem hasNext_raiseStatus (e : Status) (s : State) : HasNext (raiseStatus e s) := ⟨_, rfl⟩

theorem hasNext_ite {c : Prop} [Decidable c] {a b : Result} (ha : HasNext a) (hb : HasNext b) :
    HasNext (if c then a else b) := by
  split
  · exact ha
  · exact hb

section
variable {s : State}

theorem hasNext_inUninit {body : Result} (h : HasNext body) : HasNext (inUninit s body) := by
  unfold inUninit
  split
  · exact hasNext_raiseStatus _ s
  · exact hasNext_raiseStatus _ s
  · exact h

theorem hasNext_inReady {body : Result} (h : s.engState = .ready → HasNext body) : HasNext (inReady s body) := by
  unfold inReady
  split
  · exact hasNext_raiseStatus _ s
  · exact hasNext_raiseStatus _ s
  · next hs => exact h hs

theorem hasNext_inIndexed {body : Result} (h : HasNext body) : HasNext (inIndexed s body) := by
  unfold inIndexed
  split
  · exact h
  · exact hasNext_raiseStatus _ s
  · exact hasNext_raiseStatus _ s

theorem hasNext_atPixel (hinv : Inv s) (hs : s.engState = .ready) (x y : Half) {body : Nat → Result}
    (h : ∀ p, HasNext (body p)) : HasNext (atPixel s x y body) := by
  rw [atPixel_of_inv hinv hs]
  exact hasNext_ite (h _) (hasNext_raiseStatus _ s)

theorem hasNext_atPosition (hinv : Inv s) (hs : s.engState = .ready) (pos : Word) {body : Nat → Result}
    (h : ∀ p, HasNext (body p)) : HasNext (atPosition s pos body) := by
  rw [atPosition_of_inv hinv hs]
  exact hasNext_ite (h _) (hasNext_raiseStatus _ s)

theorem hasNext_execCfgSet (var : BitVec 2) (rba : Bool) : HasNext (execCfgSet var rba s) := by
  refine hasNext_inUninit ?_
  cases variantOfBits var with
  | none => exact hasNext_raiseStatus _ s
  | some v => exact hasNext_respond 0 _

theorem hasNext_allocate (w h : Half) : HasNext (allocate w h s) :=
  hasNext_ite (hasNext_raiseStatus _ _) (hasNext_respond 0 _)

theorem hasNext_execInit (w h : Half) : HasNext (execInit w h s) :=
  hasNext_inUninit (hasNext_ite (hasNext_raiseStatus _ s) (hasNext_ite (hasNext_raiseStatus _ s) (hasNext_allocate w h)))

end

/-- Under the invariant every command completes. -/
theorem exec_hasNext {s : State} (hinv : Inv s) (i : Instr) : HasNext (exec i s) := by
  cases i with
  | nop | palRead | bufSize | bufLength | pixelBits | dirtyLo | dirtyHi | statusRead | cvt565 | cvt666 | cvt332 | cvt233
  | cvt332To565 | cvt565ToRgb | cvt666ToRgb => exact hasNext_respond _ s
  | cfgSet var rba => exact hasNext_execCfgSet var rba
  | palSize n => exact hasNext_inUninit (hasNext_ite (hasNext_raiseStatus _ s) (hasNext_respond 0 _))
  | palWrite => exact hasNext_inUninit (hasNext_respond 0 _)
  | init w h => exact hasNext_execInit w h
  | resetDirty => exact hasNext_inReady fun _ => hasNext_respond 0 _
  | fill c => exact hasNext_inReady fun hs => withEveryCell_of_inv hinv hs _ ▸ hasNext_respond 0 _
  | setPixel x y | get565Xy x y | get666Xy x y =>
    exact hasNext_inReady fun hs => hasNext_atPixel hinv hs x y fun _ => hasNext_respond _ _
  | get565Pos pos | get666Pos pos =>
    exact hasNext_inReady fun hs => hasNext_atPosition hinv hs pos fun _ => hasNext_respond _ _
  | setPixelIndex x y | getIndexXy x y =>
    exact hasNext_inReady fun hs => hasNext_inIndexed (hasNext_atPixel hinv hs x y fun _ => hasNext_respond _ _)
  | getIndexPos pos =>
    exact hasNext_inReady fun hs => hasNext_inIndexed (hasNext_atPosition hinv hs pos fun _ => hasNext_respond _ _)

/-- Settles O14: the steps that run no command have no check that could stop them. -/
theorem everyStepCompletes : Obligations.EveryStepCompletes := by
  intro s hinv
  unfold step
  split
  · exact ⟨_, rfl⟩
  · exact ⟨_, rfl⟩
  · next rest _ =>
    split
    · next i _ => exact exec_hasNext (inv_taken hinv rest) i
    · exact ⟨_, rfl⟩

/-! ## What a reported error leaves (R212) -/

/-- The state after error `e` is reported; ERR_ALLOC also makes the engine UNUSABLE (41_lifecycle.md R137). -/
def State.errorReported (s : State) (e : Status) : State :=
  (if e = .errAlloc then s.madeUnusable else s).raised e

theorem errorReported_of_ne (s : State) {e : Status} (he : e ≠ .errAlloc) : s.errorReported e = s.raised e := by
  rw [State.errorReported, if_neg he]

theorem errorReported_eq_refusedWith (s : State) {e : Status} (he : e ≠ .errAlloc) :
    s.errorReported e = refusedWith s e (statusCode e).toNat :=
  (errorReported_of_ne s he).trans (raised_eq_refusedWith s e)

theorem errorReported_errAlloc (s : State) :
    s.errorReported .errAlloc = { refusedWith s .errAlloc 4 with engState := .unusable } :=
  raised_eq_refusedWith s.madeUnusable .errAlloc

@[simp] theorem errorReported_rsp (s : State) (e : Status) : (s.errorReported e).rsp = some ⟨e, 0⟩ := rfl

@[simp] theorem errorReported_errSticky (s : State) (e : Status) :
    (s.errorReported e).errSticky = stickyWith s.errSticky e := by
  unfold State.errorReported
  split <;> rfl

/-- The command answered OK: no sticky bit is changed, and the host's moves are left as they were. -/
def AnsweredOk (s t : State) : Prop :=
  (∃ v, t.rsp = some ⟨.ok, v⟩) ∧ t.errSticky = s.errSticky ∧ t.inbox = s.inbox

/-- `t` is what a command leaves in state `s` that reports the error `o`, or reports none. -/
def Answers (s : State) (o : Option Status) (t : State) : Prop :=
  match o with
  | some e => t = s.errorReported e
  | none => AnsweredOk s t

/-! ## The first error that applies (R213) -/

theorem firstError_taken (i : Instr) (s : State) (rest : List HostMove) :
    firstError i (s.taken rest) = firstError i s := rfl

theorem applies_of_firstError {i : Instr} {s : State} {e : Status} (h : firstError i s = some e) :
    applies i s e = true := List.find?_some h

theorem ne_ok_of_applies {i : Instr} {s : State} {e : Status} (h : applies i s e = true) : e ≠ .ok := by
  rintro rfl
  cases h

section
variable {i : Instr} {s : State}

theorem firstError_of_always (hi : permission i = .always) : firstError i s = none := by
  cases i with
  | nop | palRead | bufSize | bufLength | pixelBits | dirtyLo | dirtyHi | statusRead | cvt565 | cvt666 | cvt332 | cvt233
  | cvt332To565 | cvt565ToRgb | cvt666ToRgb => rfl
  | cfgSet | palSize | palWrite | init | fill | setPixel | setPixelIndex | get565Xy | get565Pos | get666Xy | get666Pos
  | getIndexXy | getIndexPos | resetDirty => cases hi

theorem firstError_of_unusable (hi : permission i ≠ .always) (hs : s.engState = .unusable) :
    firstError i s = some .errUnusable := by
  simp [firstError, precedence, applies, hi, hs]

theorem firstError_uninitOnly_of_ready (hi : permission i = .uninitOnly) (hs : s.engState = .ready) :
    firstError i s = some .errState := by
  simp [firstError, precedence, applies, hi, hs]

theorem firstError_readyOnly_of_uninit (hi : permission i = .readyOnly) (hs : s.engState = .uninit) :
    firstError i s = some .errState := by
  simp [firstError, precedence, applies, hi, hs]

/-- In UNINIT a configuration command has the causes of its operands and of the allocation only. -/
theorem firstError_uninitOnly_of_uninit (hi : permission i = .uninitOnly) (hs : s.engState = .uninit) :
    firstError i s = [.errArg, .errConfig, .errAlloc].find? (applies i s) := by
  cases i with
  | cfgSet | palSize | palWrite | init =>
    simp [firstError, precedence, List.find?_cons, applies, permission, hs, isIndexCommand, Safety.outOfBounds]
  | nop | palRead | fill | setPixel | setPixelIndex | get565Xy | get565Pos | get666Xy | get666Pos | getIndexXy
  | getIndexPos | bufSize | bufLength | pixelBits | dirtyLo | dirtyHi | resetDirty | statusRead | cvt565 | cvt666
  | cvt332 | cvt233 | cvt332To565 | cvt565ToRgb | cvt666ToRgb => cases hi

/-- In READY a pixel command or RESET_DIRTY has the causes of the variant and of the position only. -/
theorem firstError_readyOnly_of_ready (hi : permission i = .readyOnly) (hs : s.engState = .ready) :
    firstError i s = [.errVariant, .errBounds].find? (applies i s) := by
  cases i with
  | fill | setPixel | setPixelIndex | get565Xy | get565Pos | get666Xy | get666Pos | getIndexXy | getIndexPos
  | resetDirty =>
    simp [firstError, precedence, List.find?_cons, applies, permission, hs, Instr.wellFormed, lacksPalette, exceedsCap]
  | nop | cfgSet | palSize | palWrite | palRead | init | bufSize | bufLength | pixelBits | dirtyLo | dirtyHi
  | statusRead | cvt565 | cvt666 | cvt332 | cvt233 | cvt332To565 | cvt565ToRgb | cvt666ToRgb => cases hi

/-- Where the table of R214 permits the command, neither cause of its rows is present. -/
theorem not_applies_of_permitted (h : permission i = .always ∨ (permission i = .uninitOnly ∧ s.engState = .uninit) ∨
    (permission i = .readyOnly ∧ s.engState = .ready)) :
    applies i s .errState = false ∧ applies i s .errUnusable = false := by
  obtain hi | ⟨hi, hs⟩ | ⟨hi, hs⟩ := h
  · simp [applies, hi]
  · simp [applies, hi, hs]
  · simp [applies, hi, hs]

end

/-! ## Each check reports its own cause

`Answers s (l.find? (applies i s)) t`: of the causes in `l` the first that applies is reported in `t`. A check takes the
head of the list away: either its cause applies and is reported, or it does not and the rest of the command goes on. -/

section
variable {s t : State} {i : Instr}

theorem answers_of_respond {s' : State} {v : Word} (h : respond v s' = .next t)
    (hsticky : s'.errSticky = s.errSticky) (hinbox : s'.inbox = s.inbox) : Answers s none t :=
  respond_next h ▸ ⟨⟨v, rfl⟩, hsticky, hinbox⟩

/-- The check of cause `e` came out one way or the other. -/
theorem answers_cons {e : Status} {l : List Status} (h : (applies i s e = true ∧ t = s.errorReported e) ∨
    (applies i s e = false ∧ Answers s (l.find? (applies i s)) t)) : Answers s ((e :: l).find? (applies i s)) t := by
  obtain ⟨hc, ht⟩ | ⟨hc, ht⟩ := h
  · rwa [List.find?_cons_of_pos hc]
  · rwa [List.find?_cons_of_neg (by simp [hc])]

/-- A test of the condition that is the cause of `e`. -/
theorem answers_of_ite {e : Status} (he : e ≠ .errAlloc) {c : Prop} [Decidable c] (hc : applies i s e = true ↔ c)
    {l : List Status} {body : Result} (h : (if c then raiseStatus e s else body) = .next t)
    (hbody : body = .next t → Answers s (l.find? (applies i s)) t) : Answers s ((e :: l).find? (applies i s)) t := by
  split at h
  · next ht => exact answers_cons (.inl ⟨hc.mpr ht, (raiseStatus_next h).trans (errorReported_of_ne s he).symm⟩)
  · next hf => exact answers_cons (.inr ⟨Bool.eq_false_iff.mpr fun happ => hf (hc.mp happ), hbody h⟩)

theorem answers_of_inUninit (hi : permission i = .uninitOnly) {body : Result} (h : inUninit s body = .next t)
    (hbody : body = .next t → Answers s ([.errArg, .errConfig, .errAlloc].find? (applies i s)) t) :
    Answers s (firstError i s) t := by
  obtain ⟨hs, rfl⟩ | ⟨hs, rfl⟩ | ⟨hs, hb⟩ := inUninit_next h
  · rw [firstError_of_unusable (by simp [hi]) hs]
    rfl
  · rw [firstError_uninitOnly_of_ready hi hs]
    rfl
  · rw [firstError_uninitOnly_of_uninit hi hs]
    exact hbody hb

theorem answers_of_inReady (hi : permission i = .readyOnly) {body : Result} (h : inReady s body = .next t)
    (hbody : body = .next t → Answers s ([.errVariant, .errBounds].find? (applies i s)) t) :
    Answers s (firstError i s) t := by
  obtain ⟨hs, rfl⟩ | ⟨hs, rfl⟩ | ⟨hs, hb⟩ := inReady_next h
  · rw [firstError_of_unusable (by simp [hi]) hs]
    rfl
  · rw [firstError_readyOnly_of_uninit hi hs]
    rfl
  · rw [firstError_readyOnly_of_ready hi hs]
    exact hbody hb

theorem answers_of_inIndexed (hi : isIndexCommand i = true) {l : List Status} {body : Result}
    (h : inIndexed s body = .next t) (hbody : body = .next t → Answers s (l.find? (applies i s)) t) :
    Answers s ((.errVariant :: l).find? (applies i s)) t := by
  obtain ⟨hv, rfl⟩ | ⟨hv, hb⟩ := inIndexed_next h
  · exact answers_cons (.inl ⟨by simp [applies, hi, hv], rfl⟩)
  · exact answers_cons (.inr ⟨by simp [applies, hv], hbody hb⟩)

/-- A command that is no index command has no check of the variant. -/
theorem answers_of_not_index (hi : isIndexCommand i = false) {l : List Status}
    (h : Answers s (l.find? (applies i s)) t) : Answers s ((.errVariant :: l).find? (applies i s)) t :=
  answers_cons (.inr ⟨by simp [applies, hi], h⟩)

theorem answers_of_atPixel {x y : Half}
    (hi : Safety.outOfBounds s i = (decide (s.width.toNat ≤ x.toNat) || decide (s.height.toNat ≤ y.toNat)))
    {body : Nat → Result} (h : atPixel s x y body = .next t) (hbody : ∀ p, body p = .next t → Answers s none t) :
    Answers s ([.errBounds].find? (applies i s)) t := by
  have hcause : applies i s .errBounds = true ↔ ¬ (x < s.width ∧ y < s.height) := by
    simp only [applies, hi, Bool.or_eq_true, decide_eq_true_eq, BitVec.lt_def]
    omega
  obtain ⟨hout, rfl⟩ | ⟨hx, hy, -, hb⟩ := atPixel_next h
  · exact answers_cons (.inl ⟨hcause.mpr hout, rfl⟩)
  · exact answers_cons (.inr ⟨Bool.eq_false_iff.mpr fun hc => hcause.mp hc ⟨hx, hy⟩, hbody _ hb⟩)

theorem answers_of_atPosition {pos : Word} (hi : Safety.outOfBounds s i = decide (s.bufLen.toNat ≤ pos.toNat))
    {body : Nat → Result} (h : atPosition s pos body = .next t) (hbody : ∀ p, body p = .next t → Answers s none t) :
    Answers s ([.errBounds].find? (applies i s)) t := by
  have hcause : applies i s .errBounds = true ↔ s.bufLen ≤ pos := by
    simp only [applies, hi, decide_eq_true_eq, BitVec.le_def]
  obtain ⟨hout, rfl⟩ | ⟨hpos, -, hb⟩ := atPosition_next h
  · exact answers_cons (.inl ⟨hcause.mpr hout, rfl⟩)
  · exact answers_cons (.inr ⟨Bool.eq_false_iff.mpr fun hc => BitVec.not_le.mpr hpos (hcause.mp hc), hbody _ hb⟩)

/-! ## The configuration commands -/

/-- VAR selects no variant exactly if it is 3 (10_state.md R22). -/
theorem variantOfBits_eq_none_iff {var : BitVec 2} : variantOfBits var = none ↔ var = 3 := by
  revert var
  decide

theorem applies_errArg_cfgSet {var : BitVec 2} {rba : Bool} :
    applies (.cfgSet var rba) s .errArg = true ↔ variantOfBits var = none := by
  rw [variantOfBits_eq_none_iff]
  simp only [applies, Instr.wellFormed, Bool.not_eq_true', bne_eq_false_iff_eq]

theorem applies_errArg_palSize {n : BitVec 9} :
    applies (.palSize n) s .errArg = true ↔ n.toNat = 0 ∨ 256 < n.toNat := by
  have hzero : n = 0 ↔ n.toNat = 0 := BitVec.toNat_inj.symm
  simp only [applies, Instr.wellFormed, Bool.not_eq_true', Bool.and_eq_false_iff, bne_eq_false_iff_eq,
    decide_eq_false_iff_not, Nat.not_le, hzero]

theorem applies_errArg_init {w h : Half} : applies (.init w h) s .errArg = true ↔ w = 0 ∨ h = 0 := by
  simp only [applies, Instr.wellFormed, Bool.not_eq_true', Bool.and_eq_false_iff, bne_eq_false_iff_eq]

theorem applies_errConfig_init {w h : Half} :
    applies (.init w h) s .errConfig = true ↔ s.cfgVariant = .indexed ∧ s.palSize = 0 := by
  simp only [applies, lacksPalette, Bool.and_eq_true, beq_iff_eq]

theorem execCfgSet_answers {var : BitVec 2} {rba : Bool} (h : execCfgSet var rba s = .next t) :
    Answers s (firstError (.cfgSet var rba) s) t := by
  refine answers_of_inUninit rfl h fun hb => ?_
  split at hb
  · next hv => exact answers_cons (.inl ⟨applies_errArg_cfgSet.mpr hv, raiseStatus_next hb⟩)
  · next v hv =>
    have hformed : applies (.cfgSet var rba) s .errArg = false :=
      Bool.eq_false_iff.mpr fun hc => by simp [applies_errArg_cfgSet.mp hc] at hv
    exact answers_cons (.inr ⟨hformed, answers_of_respond hb rfl rfl⟩)

theorem execPalSize_answers {n : BitVec 9} (h : execPalSize n s = .next t) :
    Answers s (firstError (.palSize n) s) t :=
  answers_of_inUninit rfl h fun h => answers_of_ite (by decide) applies_errArg_palSize h fun h =>
    answers_of_respond h rfl rfl

theorem allocate_answers {w h : Half} (hn : allocate w h s = .next t) :
    Answers s ([.errAlloc].find? (applies (.init w h) s)) t := by
  obtain ⟨hcap, rfl⟩ | ⟨hcap, rfl⟩ := allocate_next hn
  · exact answers_cons (.inl ⟨decide_eq_true hcap, rfl⟩)
  · exact answers_cons (.inr ⟨decide_eq_false (Nat.not_lt.mpr hcap), ⟨0, rfl⟩, rfl, rfl⟩)

theorem execInit_answers {w h : Half} (hn : execInit w h s = .next t) : Answers s (firstError (.init w h) s) t :=
  answers_of_inUninit rfl hn fun hn => answers_of_ite (by decide) applies_errArg_init hn fun hn =>
    answers_of_ite (by decide) applies_errConfig_init hn allocate_answers

end

/-! ## Every command reports its first error -/

/-- A command that completes, in any state, reports the first error that applies, and answers OK if none does. -/
theorem exec_answers {i : Instr} {s t : State} (h : exec i s = .next t) : Answers s (firstError i s) t := by
  cases i with
  | nop | palRead | bufSize | bufLength | pixelBits | dirtyLo | dirtyHi | statusRead | cvt565 | cvt666 | cvt332 | cvt233
  | cvt332To565 | cvt565ToRgb | cvt666ToRgb =>
    rw [firstError_of_always rfl]
    exact answers_of_respond h rfl rfl
  | cfgSet => exact execCfgSet_answers h
  | palSize => exact execPalSize_answers h
  | palWrite => exact answers_of_inUninit rfl h fun h => answers_of_respond h rfl rfl
  | init => exact execInit_answers h
  | fill =>
    exact answers_of_inReady rfl h fun h => answers_of_respond (withEveryCell_next h).1 rfl rfl
  | resetDirty => exact answers_of_inReady rfl h fun h => answers_of_respond h rfl rfl
  | setPixel | get565Xy | get666Xy =>
    exact answers_of_inReady rfl h fun h => answers_of_not_index rfl <|
      answers_of_atPixel rfl h fun _ h => answers_of_respond h rfl rfl
  | get565Pos | get666Pos =>
    exact answers_of_inReady rfl h fun h => answers_of_not_index rfl <|
      answers_of_atPosition rfl h fun _ h => answers_of_respond h rfl rfl
  | setPixelIndex | getIndexXy =>
    exact answers_of_inReady rfl h fun h => answers_of_inIndexed rfl h fun h =>
      answers_of_atPixel rfl h fun _ h => answers_of_respond h rfl rfl
  | getIndexPos =>
    exact answers_of_inReady rfl h fun h => answers_of_inIndexed rfl h fun h =>
      answers_of_atPosition rfl h fun _ h => answers_of_respond h rfl rfl

/-! ## Where a command is permitted (R214) -/

section
variable {s : State}

/-- Each command permitted in READY only begins with the state check (R213, R214). -/
theorem exec_eq_inReady {i : Instr} (hi : permission i = .readyOnly) (s : State) :
    ∃ body, exec i s = inReady s body := by
  cases i with
  | fill | setPixel | setPixelIndex | get565Xy | get565Pos | get666Xy | get666Pos | getIndexXy | getIndexPos
  | resetDirty => exact ⟨_, rfl⟩
  | nop | cfgSet | palSize | palWrite | palRead | init | bufSize | bufLength | pixelBits | dirtyLo | dirtyHi
  | statusRead | cvt565 | cvt666 | cvt332 | cvt233 | cvt332To565 | cvt565ToRgb | cvt666ToRgb => cases hi

theorem exec_readyOnly_of_uninit {i : Instr} (hi : permission i = .readyOnly) (hs : s.engState = .uninit) :
    exec i s = .next (refusedWith s .errState 2) := by
  obtain ⟨body, hexec⟩ := exec_eq_inReady hi s
  rw [hexec, inReady_of_uninit hs]

theorem exec_of_unusable {i : Instr} (hi : permission i ≠ .always) (hs : s.engState = .unusable) :
    exec i s = .next (refusedWith s .errUnusable 3) := by
  cases hp : permission i with
  | always => exact absurd hp hi
  | uninitOnly => exact exec_uninitOnly_of_unusable hp hs
  | readyOnly =>
    obtain ⟨body, hexec⟩ := exec_eq_inReady hp s
    rw [hexec, inReady_of_unusable hs]

/-- The response of a command: OK, or an error whose cause is present. -/
theorem status_eq_ok_or_applies {i : Instr} {t : State} {r : Response} (h : exec i s = .next t) (hr : t.rsp = some r) :
    r.status = .ok ∨ applies i s r.status = true := by
  have hanswers := exec_answers h
  cases hfirst : firstError i s with
  | none =>
    rw [hfirst] at hanswers
    obtain ⟨⟨v, hv⟩, -, -⟩ := hanswers
    obtain rfl : ⟨.ok, v⟩ = r := Option.some.inj (hv.symm.trans hr)
    exact .inl rfl
  | some e =>
    rw [hfirst] at hanswers
    obtain rfl : t = s.errorReported e := hanswers
    obtain rfl : ⟨e, 0⟩ = r := Option.some.inj hr
    exact .inr (applies_of_firstError hfirst)

end

/-- Settles O16: a permitted command cannot report ERR_STATE or ERR_UNUSABLE, for their causes are absent. -/
theorem permissionTable : Obligations.PermissionTable := by
  intro i s
  refine ⟨exec_of_unusable, exec_uninitOnly_of_ready, exec_readyOnly_of_uninit, fun hpermitted t r h hr => ?_⟩
  obtain ⟨hstate, hunusable⟩ := not_applies_of_permitted hpermitted
  obtain hok | hcause := status_eq_ok_or_applies h hr
  · simp [hok]
  · exact ⟨fun he => by simp [he, hstate] at hcause, fun he => by simp [he, hunusable] at hcause⟩

/-! ## The outcome of a command step (R212, R213, R215) -/

/-- Settles O17: under the invariant the command completes, and then it reports its first error. -/
theorem firstApplicableErrorIsReported : Obligations.FirstApplicableErrorIsReported := by
  intro s data rest hinv hi
  refine ⟨fun hillegal => illegalCommandIsAnswered s data rest hi hillegal, fun i hd => ?_⟩
  obtain ⟨t, ht⟩ := exec_hasNext (inv_taken hinv rest) i
  have hanswers := exec_answers ht
  rw [firstError_taken] at hanswers
  rw [step_of_command hi hd, ht]
  split
  · next hfirst =>
    rw [hfirst] at hanswers
    exact congrArg _ (hanswers.trans (errorReported_errAlloc (s.taken rest)))
  · next e hne hfirst =>
    rw [hfirst] at hanswers
    exact congrArg _ (hanswers.trans (errorReported_eq_refusedWith (s.taken rest) fun he => hne (he ▸ rfl)))
  · next hfirst =>
    rw [hfirst] at hanswers
    obtain ⟨⟨v, hv⟩, hsticky, -⟩ := hanswers
    exact ⟨t, v, rfl, hv, hsticky⟩

/-- A command step, legal or not, answers OK or reports an error. -/
theorem answers_of_step {s t : State} {data : Command} {rest : List HostMove} (hi : s.inbox = .command data :: rest)
    (h : step s = .next t) : AnsweredOk (s.taken rest) t ∨ ∃ e, e ≠ .ok ∧ t = (s.taken rest).errorReported e := by
  cases hd : decode data with
  | error e =>
    simp only [step, hi, hd] at h
    exact .inr ⟨.errIllegal, by decide, raiseStatus_next h⟩
  | ok i =>
    rw [step_of_command hi hd] at h
    have hanswers := exec_answers h
    cases hfirst : firstError i (s.taken rest) with
    | none =>
      rw [hfirst] at hanswers
      exact .inl hanswers
    | some e =>
      rw [hfirst] at hanswers
      exact .inr ⟨e, ne_ok_of_applies (applies_of_firstError hfirst), hanswers⟩

/-- Settles O18: ERR_ALLOC is the one error that leaves more than its sticky bit and the response. -/
theorem commandHasOneOfTwoOutcomes : Obligations.CommandHasOneOfTwoOutcomes := by
  intro s t data rest hi h
  obtain ⟨⟨v, hv⟩, hsticky, hinbox⟩ | ⟨e, he, rfl⟩ := answers_of_step hi h
  · exact .inl ⟨v, hv, hsticky, hinbox⟩
  · by_cases halloc : e = .errAlloc
    · subst halloc
      exact .inr (.inr (errorReported_errAlloc (s.taken rest)))
    · exact .inr (.inl ⟨e, he, halloc, errorReported_eq_refusedWith (s.taken rest) halloc⟩)

/-- Settles O19: an error only sets a bit, and the sticky bits of the power-on state are 0. -/
theorem stickyBitsStayUntilReset : Obligations.StickyBitsStayUntilReset := by
  refine ⟨fun s t data rest hi h => ?_, fun s t ⟨pal, bytes, rest, hi⟩ h => ?_⟩
  · obtain ⟨⟨v, hv⟩, hsticky, -⟩ | ⟨e, he, rfl⟩ := answers_of_step hi h
    · have hsame : t.errSticky = s.errSticky := hsticky
      exact ⟨fun n hn => by rwa [hsame], _, hv, fun hne => absurd rfl hne, fun _ => hsame⟩
    · refine ⟨fun n hn => ?_, _, errorReported_rsp _ e, fun _ => ?_, fun hok => absurd hok he⟩
      · simp [getLsbD_stickyWith, hn]
      · simp [getLsbD_stickyWith]
  · rw [step_of_reset hi] at h
    cases h
    rfl

end Sys2Proof.Machine
end

section
/-! Reset (70_reset_and_hazards.md R230): the power-on registers, and the one way out of READY and UNUSABLE. -/

namespace Sys2Proof.Machine

/-- Settles O10: a reset step leaves the power-on registers; a step that takes no reset changes ENG_STATE only through
INIT in UNINIT. -/
theorem resetSetsEveryRegister : Obligations.ResetSetsEveryRegister := by
  refine ⟨fun s pal bytes rest hi => ⟨_, step_of_reset hi, ?registers⟩, fun s t hs h hne => ?exit⟩
  case registers => simp [DirtyRect.empty]
  case exit =>
    by_contra hr
    obtain hkeep | ⟨huninit, -⟩ := step_engState_eq_or_init h hr
    · exact hne hkeep
    · exact hs huninit

end Sys2Proof.Machine
end
